-- ==== Sys2Proof/Word.lean ====
section
/-! DEFINITION. The widths the spec works in (00_scope R9, R10; 20_memory R60): bytes, 16-bit and 32-bit registers, and
the 14-bit byte address of the host bus. All arithmetic of the CFC is unsigned and wraps at the width given (R104). -/

namespace Sys2Proof

/-- One byte of a buffer, a key, an IV or a frame (R11). -/
abbrev Byte := BitVec 8

/-- A 16-bit register or header field: a checksum, a length, the sequence counter (R9). -/
abbrev Half := BitVec 16

/-- A 32-bit register, and the data of a host-bus access (R22, R60). -/
abbrev Word := BitVec 32

/-- A byte address on the host bus: 14 bits, 0x0000..0x3FFF (R60). -/
abbrev BusAddr := BitVec 14

end Sys2Proof
end

