-- ==== Sys2Proof/Syntax.lean ====
section
/-! DEFINITION. The commands of the CFC: one constructor per row of spec/opcode_table.json (30_encoding R92). A command has
no register or immediate field; its only operand bits are the Booleans U and A (R91). -/

namespace Sys2Proof

/-- The eleven commands (R92). -/
inductive Instr where
  /-- `NOP`, 0x00: no operation (R210). -/
  | nop
  /-- `CSUMF`, 0x01: checksum of the frame buffer (R124). -/
  | csumf
  /-- `CSUMP`, 0x02: checksum of the payload buffer (R127). -/
  | csump
  /-- `PAD`, 0x03: zero-pad the payload in place (R184). -/
  | pad
  /-- `ENC`, 0x04: CBC-encrypt the payload in place (R188). -/
  | enc
  /-- `DEC`, 0x05: CBC-decrypt the payload in place; `unpad` is the flag U, bit 8 (R192, R194). -/
  | dec (unpad : Bool)
  /-- `BUILD`, 0x06: build a frame in FBUF; `autoseq` is the flag A, bit 9 (R130, R133). -/
  | build (autoseq : Bool)
  /-- `VALIDATE`, 0x07: check the frame checksum (R140). -/
  | validate
  /-- `PARSE`, 0x08: header fields to the RX registers, payload to PBUF (R146). -/
  | parse
  /-- `AUTHKEY`, 0x09: identifier and key from a decrypted authentication reply (R213). -/
  | authkey
  /-- `KEYRST`, 0x0A: default key, zero identifier (R216). -/
  | keyrst
  deriving DecidableEq, Repr

end Sys2Proof
end

