-- ==== Sys2Proof/Decode.lean ====
section
/-! DEFINITION. The decoder of a command word (30_encoding R90 to R97), total on every 32-bit word and rejecting by name,
and after it the encoder. The field positions are decided here, once. -/

namespace Sys2Proof

/-- Why a command word is illegal (R93, R97). All four raise the same error code, ILLEGAL. -/
inductive Illegal where
  /-- One of bits 31:10 is set. -/
  | reservedBits
  /-- OP is one of the reserved values 0x0B..0xFF. -/
  | reservedOp
  /-- U is set and OP is not DEC. -/
  | unpadNotDec
  /-- A is set and OP is not BUILD. -/
  | autoseqNotBuild
  deriving DecidableEq, Repr

/-- OP, bits 7:0 (R90). -/
def opField (w : Word) : Byte := w.extractLsb' 0 8

/-- U, bit 8 (R90). -/
def unpadField (w : Word) : Bool := w.getLsbD 8

/-- A, bit 9 (R90). -/
def autoseqField (w : Word) : Bool := w.getLsbD 9

/-- RSV, bits 31:10 (R90). -/
def reservedField (w : Word) : BitVec 22 := w.extractLsb' 10 22

/-- The command OP selects, with the modifier bits it takes (R92). -/
def opCommand (op : Byte) (u a : Bool) : Option Instr :=
  match op.toNat with
  | 0x00 => some .nop
  | 0x01 => some .csumf
  | 0x02 => some .csump
  | 0x03 => some .pad
  | 0x04 => some .enc
  | 0x05 => some (.dec u)
  | 0x06 => some (.build a)
  | 0x07 => some .validate
  | 0x08 => some .parse
  | 0x09 => some .authkey
  | 0x0A => some .keyrst
  | _ => none

/-- The decoder: the whole word is taken (R90, R93, R95). -/
def decode (w : Word) : Except Illegal Instr :=
  if reservedField w ≠ 0#22 then .error .reservedBits
  else
    match opCommand (opField w) (unpadField w) (autoseqField w) with
    | none => .error .reservedOp
    | some i =>
      if unpadField w && opField w != 0x05#8 then .error .unpadNotDec
      else if autoseqField w && opField w != 0x06#8 then .error .autoseqNotBuild
      else .ok i

/-- The OP value of a command (R92). -/
def Instr.op : Instr → Byte
  | .nop => 0x00#8
  | .csumf => 0x01#8
  | .csump => 0x02#8
  | .pad => 0x03#8
  | .enc => 0x04#8
  | .dec _ => 0x05#8
  | .build _ => 0x06#8
  | .validate => 0x07#8
  | .parse => 0x08#8
  | .authkey => 0x09#8
  | .keyrst => 0x0A#8

/-- The flag U of a command: only DEC has it (R92). -/
def Instr.unpad : Instr → Bool
  | .dec u => u
  | _ => false

/-- The flag A of a command: only BUILD has it (R92). -/
def Instr.autoseq : Instr → Bool
  | .build a => a
  | _ => false

/-- The word of a command: OP in bits 7:0, U in bit 8, A in bit 9, zeros above (R90). -/
def encode (i : Instr) : Word :=
  BitVec.ofNat 32 (i.op.toNat + 2 ^ 8 * i.unpad.toNat + 2 ^ 9 * i.autoseq.toNat)

/-- A row of spec/opcode_table.json. -/
structure OpcodeRow where
  mnemonic : String
  matched : Word
  mask : Word
  deriving DecidableEq, Repr

/-- spec/opcode_table.json: a word is a row's exactly when `(w & mask) = match` (R93). -/
def opcodeTable : List OpcodeRow := [
  ⟨"NOP", 0x00000000#32, 0xFFFFFFFF#32⟩,
  ⟨"CSUMF", 0x00000001#32, 0xFFFFFFFF#32⟩,
  ⟨"CSUMP", 0x00000002#32, 0xFFFFFFFF#32⟩,
  ⟨"PAD", 0x00000003#32, 0xFFFFFFFF#32⟩,
  ⟨"ENC", 0x00000004#32, 0xFFFFFFFF#32⟩,
  ⟨"DEC", 0x00000005#32, 0xFFFFFEFF#32⟩,
  ⟨"BUILD", 0x00000006#32, 0xFFFFFDFF#32⟩,
  ⟨"VALIDATE", 0x00000007#32, 0xFFFFFFFF#32⟩,
  ⟨"PARSE", 0x00000008#32, 0xFFFFFFFF#32⟩,
  ⟨"AUTHKEY", 0x00000009#32, 0xFFFFFFFF#32⟩,
  ⟨"KEYRST", 0x0000000A#32, 0xFFFFFFFF#32⟩]

/-- The word is one of the row's (R93). -/
def OpcodeRow.covers (r : OpcodeRow) (w : Word) : Bool := w &&& r.mask == r.matched

/-- The host's question: the instruction the decoder reads from the word `w` of `nbits` bits, every bit above them 0. A
command is one 32-bit word, read from the CMD latch whole (R90, R98), so no byte order arises. -/
def decodeTableWord (nbits w : Nat) : Option Instr :=
  match decode (BitVec.ofNat 32 (w % 2 ^ nbits)) with
  | .ok i => some i
  | .error _ => none

end Sys2Proof
end

