-- ==== Sys2Proof/Machine/Bytes.lean ====
section
/-! DEFINITION. Byte sequences as 00_scope R11 defines them: `s[a..b)`, `LE16`, `LE32` and their inverses, `zeros(n)` and the
bytewise xor. Byte order is decided here, once. -/

namespace Sys2Proof.Machine

/-- Byte `i` of a sequence; 0 past its end, a case no rule reaches (R11). -/
def byteAt (bs : List Byte) (i : Nat) : Byte := bs.getD i 0#8

/-- `s[a..b)`: the bytes a up to but not including b (R11). -/
def slice (bs : List Byte) (a b : Nat) : List Byte := (bs.take b).drop a

/-- `zeros(n)`: n bytes of 0x00 (R11). -/
def zeros (n : Nat) : List Byte := List.replicate n 0#8

/-- `LE16(s) = s[0] + 256*s[1]` (R11). -/
def le16 (bs : List Byte) : Half := BitVec.ofNat 16 ((byteAt bs 0).toNat + 256 * (byteAt bs 1).toNat)

/-- `LE32(s) = s[0] + 2^8*s[1] + 2^16*s[2] + 2^24*s[3]` (R11). -/
def le32 (bs : List Byte) : Word :=
  BitVec.ofNat 32 ((byteAt bs 0).toNat + 2 ^ 8 * (byteAt bs 1).toNat + 2 ^ 16 * (byteAt bs 2).toNat +
    2 ^ 24 * (byteAt bs 3).toNat)

/-- `bytesLE16(v)`: least significant byte first (R11). -/
def bytesLE16 (v : Half) : List Byte := [v.extractLsb' 0 8, v.extractLsb' 8 8]

/-- `bytesLE32(v)`: least significant byte first (R11). -/
def bytesLE32 (v : Word) : List Byte :=
  [v.extractLsb' 0 8, v.extractLsb' 8 8, v.extractLsb' 16 8, v.extractLsb' 24 8]

end Sys2Proof.Machine
end

