-- ==== Sys2Proof/Machine/Aes.lean ====
section
/-! DEFINITION. The block cipher of 41_cipher R160 to R171: AES-128 as the spec transcribes it from FIPS-197 (the spec marks
the passage as general knowledge, log 12). A block is a 4x4 state of four columns of four bytes. -/

namespace Sys2Proof.Machine

/-- Four bytes: a column of the cipher's state, and a word `w = (w0, w1, w2, w3)` of the key schedule (R161). -/
structure Col where
  b0 : Byte
  b1 : Byte
  b2 : Byte
  b3 : Byte
  deriving DecidableEq, Repr

/-- The 4x4 byte state, column by column: byte r of column c is `s[r][c]` (R161). -/
structure Block where
  c0 : Col
  c1 : Col
  c2 : Col
  c3 : Col
  deriving DecidableEq, Repr

/-- The four bytes of a sequence from position `i` on, as a column. -/
def colAt (bs : List Byte) (i : Nat) : Col :=
  ⟨byteAt bs i, byteAt bs (i + 1), byteAt bs (i + 2), byteAt bs (i + 3)⟩

/-- `s[r][c] = in[r + 4c]` (R161). -/
def loadBlock (bs : List Byte) : Block := ⟨colAt bs 0, colAt bs 4, colAt bs 8, colAt bs 12⟩

/-- The bytes of a column, row 0 first. -/
def colBytes (w : Col) : List Byte := [w.b0, w.b1, w.b2, w.b3]

/-- `out[r + 4c] = s[r][c]` (R161). -/
def storeBlock (s : Block) : List Byte := colBytes s.c0 ++ colBytes s.c1 ++ colBytes s.c2 ++ colBytes s.c3

/-- Addition of columns: bytewise xor (R162, R169). -/
def xorCol (a b : Col) : Col := ⟨a.b0 ^^^ b.b0, a.b1 ^^^ b.b1, a.b2 ^^^ b.b2, a.b3 ^^^ b.b3⟩

/-- Bytewise xor of two blocks (R11). -/
def xorBlock (a b : Block) : Block := ⟨xorCol a.c0 b.c0, xorCol a.c1 b.c1, xorCol a.c2 b.c2, xorCol a.c3 b.c3⟩

/-- A byte function applied to every byte of a block. -/
def mapBlock (f : Byte → Byte) (s : Block) : Block :=
  let col (w : Col) : Col := ⟨f w.b0, f w.b1, f w.b2, f w.b3⟩
  ⟨col s.c0, col s.c1, col s.c2, col s.c3⟩

/-- `xtime(a) = ((a << 1) xor (a[7] = 1 ? 0x1B : 0x00)) mod 2^8` (R162). -/
def xtime (a : Byte) : Byte := (a <<< 1) ^^^ (if a.getLsbD 7 then 0x1B#8 else 0x00#8)

/-- The xor of `xtime^i(a)` over the bits i of b that are set, for the next `n` bits, lowest first. -/
def mulBits : Nat → Byte → Byte → Byte
  | 0, _, _ => 0#8
  | n + 1, a, b => (if b.getLsbD 0 then a else 0#8) ^^^ mulBits n (xtime a) (b >>> 1)

/-- `a • b` in GF(2^8) with the polynomial 0x11B: the xor of `xtime^i(a)` over the bits i set in b (R162). -/
def gmul (a b : Byte) : Byte := mulBits 8 a b

/-- The table of R163, one row per high nibble. -/
def sboxRows : List (List Byte) :=
  [
   [0x63#8, 0x7c#8, 0x77#8, 0x7b#8, 0xf2#8, 0x6b#8, 0x6f#8, 0xc5#8,
     0x30#8, 0x01#8, 0x67#8, 0x2b#8, 0xfe#8, 0xd7#8, 0xab#8, 0x76#8],
   [0xca#8, 0x82#8, 0xc9#8, 0x7d#8, 0xfa#8, 0x59#8, 0x47#8, 0xf0#8,
     0xad#8, 0xd4#8, 0xa2#8, 0xaf#8, 0x9c#8, 0xa4#8, 0x72#8, 0xc0#8],
   [0xb7#8, 0xfd#8, 0x93#8, 0x26#8, 0x36#8, 0x3f#8, 0xf7#8, 0xcc#8,
     0x34#8, 0xa5#8, 0xe5#8, 0xf1#8, 0x71#8, 0xd8#8, 0x31#8, 0x15#8],
   [0x04#8, 0xc7#8, 0x23#8, 0xc3#8, 0x18#8, 0x96#8, 0x05#8, 0x9a#8,
     0x07#8, 0x12#8, 0x80#8, 0xe2#8, 0xeb#8, 0x27#8, 0xb2#8, 0x75#8],
   [0x09#8, 0x83#8, 0x2c#8, 0x1a#8, 0x1b#8, 0x6e#8, 0x5a#8, 0xa0#8,
     0x52#8, 0x3b#8, 0xd6#8, 0xb3#8, 0x29#8, 0xe3#8, 0x2f#8, 0x84#8],
   [0x53#8, 0xd1#8, 0x00#8, 0xed#8, 0x20#8, 0xfc#8, 0xb1#8, 0x5b#8,
     0x6a#8, 0xcb#8, 0xbe#8, 0x39#8, 0x4a#8, 0x4c#8, 0x58#8, 0xcf#8],
   [0xd0#8, 0xef#8, 0xaa#8, 0xfb#8, 0x43#8, 0x4d#8, 0x33#8, 0x85#8,
     0x45#8, 0xf9#8, 0x02#8, 0x7f#8, 0x50#8, 0x3c#8, 0x9f#8, 0xa8#8],
   [0x51#8, 0xa3#8, 0x40#8, 0x8f#8, 0x92#8, 0x9d#8, 0x38#8, 0xf5#8,
     0xbc#8, 0xb6#8, 0xda#8, 0x21#8, 0x10#8, 0xff#8, 0xf3#8, 0xd2#8]] ++ [
   [0xcd#8, 0x0c#8, 0x13#8, 0xec#8, 0x5f#8, 0x97#8, 0x44#8, 0x17#8,
     0xc4#8, 0xa7#8, 0x7e#8, 0x3d#8, 0x64#8, 0x5d#8, 0x19#8, 0x73#8],
   [0x60#8, 0x81#8, 0x4f#8, 0xdc#8, 0x22#8, 0x2a#8, 0x90#8, 0x88#8,
     0x46#8, 0xee#8, 0xb8#8, 0x14#8, 0xde#8, 0x5e#8, 0x0b#8, 0xdb#8],
   [0xe0#8, 0x32#8, 0x3a#8, 0x0a#8, 0x49#8, 0x06#8, 0x24#8, 0x5c#8,
     0xc2#8, 0xd3#8, 0xac#8, 0x62#8, 0x91#8, 0x95#8, 0xe4#8, 0x79#8],
   [0xe7#8, 0xc8#8, 0x37#8, 0x6d#8, 0x8d#8, 0xd5#8, 0x4e#8, 0xa9#8,
     0x6c#8, 0x56#8, 0xf4#8, 0xea#8, 0x65#8, 0x7a#8, 0xae#8, 0x08#8],
   [0xba#8, 0x78#8, 0x25#8, 0x2e#8, 0x1c#8, 0xa6#8, 0xb4#8, 0xc6#8,
     0xe8#8, 0xdd#8, 0x74#8, 0x1f#8, 0x4b#8, 0xbd#8, 0x8b#8, 0x8a#8],
   [0x70#8, 0x3e#8, 0xb5#8, 0x66#8, 0x48#8, 0x03#8, 0xf6#8, 0x0e#8,
     0x61#8, 0x35#8, 0x57#8, 0xb9#8, 0x86#8, 0xc1#8, 0x1d#8, 0x9e#8],
   [0xe1#8, 0xf8#8, 0x98#8, 0x11#8, 0x69#8, 0xd9#8, 0x8e#8, 0x94#8,
     0x9b#8, 0x1e#8, 0x87#8, 0xe9#8, 0xce#8, 0x55#8, 0x28#8, 0xdf#8],
   [0x8c#8, 0xa1#8, 0x89#8, 0x0d#8, 0xbf#8, 0xe6#8, 0x42#8, 0x68#8,
     0x41#8, 0x99#8, 0x2d#8, 0x0f#8, 0xb0#8, 0x54#8, 0xbb#8, 0x16#8]]

/-- The table of R164, one row per high nibble. -/
def invSboxRows : List (List Byte) :=
  [
   [0x52#8, 0x09#8, 0x6a#8, 0xd5#8, 0x30#8, 0x36#8, 0xa5#8, 0x38#8,
     0xbf#8, 0x40#8, 0xa3#8, 0x9e#8, 0x81#8, 0xf3#8, 0xd7#8, 0xfb#8],
   [0x7c#8, 0xe3#8, 0x39#8, 0x82#8, 0x9b#8, 0x2f#8, 0xff#8, 0x87#8,
     0x34#8, 0x8e#8, 0x43#8, 0x44#8, 0xc4#8, 0xde#8, 0xe9#8, 0xcb#8],
   [0x54#8, 0x7b#8, 0x94#8, 0x32#8, 0xa6#8, 0xc2#8, 0x23#8, 0x3d#8,
     0xee#8, 0x4c#8, 0x95#8, 0x0b#8, 0x42#8, 0xfa#8, 0xc3#8, 0x4e#8],
   [0x08#8, 0x2e#8, 0xa1#8, 0x66#8, 0x28#8, 0xd9#8, 0x24#8, 0xb2#8,
     0x76#8, 0x5b#8, 0xa2#8, 0x49#8, 0x6d#8, 0x8b#8, 0xd1#8, 0x25#8],
   [0x72#8, 0xf8#8, 0xf6#8, 0x64#8, 0x86#8, 0x68#8, 0x98#8, 0x16#8,
     0xd4#8, 0xa4#8, 0x5c#8, 0xcc#8, 0x5d#8, 0x65#8, 0xb6#8, 0x92#8],
   [0x6c#8, 0x70#8, 0x48#8, 0x50#8, 0xfd#8, 0xed#8, 0xb9#8, 0xda#8,
     0x5e#8, 0x15#8, 0x46#8, 0x57#8, 0xa7#8, 0x8d#8, 0x9d#8, 0x84#8],
   [0x90#8, 0xd8#8, 0xab#8, 0x00#8, 0x8c#8, 0xbc#8, 0xd3#8, 0x0a#8,
     0xf7#8, 0xe4#8, 0x58#8, 0x05#8, 0xb8#8, 0xb3#8, 0x45#8, 0x06#8],
   [0xd0#8, 0x2c#8, 0x1e#8, 0x8f#8, 0xca#8, 0x3f#8, 0x0f#8, 0x02#8,
     0xc1#8, 0xaf#8, 0xbd#8, 0x03#8, 0x01#8, 0x13#8, 0x8a#8, 0x6b#8]] ++ [
   [0x3a#8, 0x91#8, 0x11#8, 0x41#8, 0x4f#8, 0x67#8, 0xdc#8, 0xea#8,
     0x97#8, 0xf2#8, 0xcf#8, 0xce#8, 0xf0#8, 0xb4#8, 0xe6#8, 0x73#8],
   [0x96#8, 0xac#8, 0x74#8, 0x22#8, 0xe7#8, 0xad#8, 0x35#8, 0x85#8,
     0xe2#8, 0xf9#8, 0x37#8, 0xe8#8, 0x1c#8, 0x75#8, 0xdf#8, 0x6e#8],
   [0x47#8, 0xf1#8, 0x1a#8, 0x71#8, 0x1d#8, 0x29#8, 0xc5#8, 0x89#8,
     0x6f#8, 0xb7#8, 0x62#8, 0x0e#8, 0xaa#8, 0x18#8, 0xbe#8, 0x1b#8],
   [0xfc#8, 0x56#8, 0x3e#8, 0x4b#8, 0xc6#8, 0xd2#8, 0x79#8, 0x20#8,
     0x9a#8, 0xdb#8, 0xc0#8, 0xfe#8, 0x78#8, 0xcd#8, 0x5a#8, 0xf4#8],
   [0x1f#8, 0xdd#8, 0xa8#8, 0x33#8, 0x88#8, 0x07#8, 0xc7#8, 0x31#8,
     0xb1#8, 0x12#8, 0x10#8, 0x59#8, 0x27#8, 0x80#8, 0xec#8, 0x5f#8],
   [0x60#8, 0x51#8, 0x7f#8, 0xa9#8, 0x19#8, 0xb5#8, 0x4a#8, 0x0d#8,
     0x2d#8, 0xe5#8, 0x7a#8, 0x9f#8, 0x93#8, 0xc9#8, 0x9c#8, 0xef#8],
   [0xa0#8, 0xe0#8, 0x3b#8, 0x4d#8, 0xae#8, 0x2a#8, 0xf5#8, 0xb0#8,
     0xc8#8, 0xeb#8, 0xbb#8, 0x3c#8, 0x83#8, 0x53#8, 0x99#8, 0x61#8],
   [0x17#8, 0x2b#8, 0x04#8, 0x7e#8, 0xba#8, 0x77#8, 0xd6#8, 0x26#8,
     0xe1#8, 0x69#8, 0x14#8, 0x63#8, 0x55#8, 0x21#8, 0x0c#8, 0x7d#8]]

/-- The entry of a table at row = high nibble, column = low nibble of x (R163). -/
def lookup (t : List (List Byte)) (x : Byte) : Byte := byteAt (t.getD (x.toNat / 16) []) (x.toNat % 16)

/-- `SBOX[x]` (R163). -/
def sbox (x : Byte) : Byte := lookup sboxRows x

/-- `INV_SBOX[x]` (R164). -/
def invSbox (x : Byte) : Byte := lookup invSboxRows x

/-- The affine map `A` of R163: bit i is `b[i] xor b[(i+4) mod 8] xor b[(i+5) mod 8] xor b[(i+6) mod 8] xor
b[(i+7) mod 8] xor 0x63[i]`. -/
def sboxAffine (b : Byte) : Byte :=
  b ^^^ b.rotateRight 4 ^^^ b.rotateRight 5 ^^^ b.rotateRight 6 ^^^ b.rotateRight 7 ^^^ 0x63#8

/-- `SubBytes` (R165). -/
def subBytes (s : Block) : Block := mapBlock sbox s

/-- `InvSubBytes` (R165). -/
def invSubBytes (s : Block) : Block := mapBlock invSbox s

/-- `ShiftRows(s)[r][c] = s[r][(c + r) mod 4]` (R166). -/
def shiftRows (s : Block) : Block where
  c0 := ⟨s.c0.b0, s.c1.b1, s.c2.b2, s.c3.b3⟩
  c1 := ⟨s.c1.b0, s.c2.b1, s.c3.b2, s.c0.b3⟩
  c2 := ⟨s.c2.b0, s.c3.b1, s.c0.b2, s.c1.b3⟩
  c3 := ⟨s.c3.b0, s.c0.b1, s.c1.b2, s.c2.b3⟩

/-- `InvShiftRows(s)[r][(c + r) mod 4] = s[r][c]` (R166). -/
def invShiftRows (s : Block) : Block where
  c0 := ⟨s.c0.b0, s.c3.b1, s.c2.b2, s.c1.b3⟩
  c1 := ⟨s.c1.b0, s.c0.b1, s.c3.b2, s.c2.b3⟩
  c2 := ⟨s.c2.b0, s.c1.b1, s.c0.b2, s.c3.b3⟩
  c3 := ⟨s.c3.b0, s.c2.b1, s.c1.b2, s.c0.b3⟩

/-- One output byte of a column product: the row `(k0, k1, k2, k3)` of coefficients against the column (R167). -/
def mixByte (k0 k1 k2 k3 : Byte) (a : Col) : Byte := gmul k0 a.b0 ^^^ gmul k1 a.b1 ^^^ gmul k2 a.b2 ^^^ gmul k3 a.b3

/-- `MixColumns` on one column (R167). -/
def mixCol (a : Col) : Col :=
  ⟨mixByte 2 3 1 1 a, mixByte 1 2 3 1 a, mixByte 1 1 2 3 a, mixByte 3 1 1 2 a⟩

/-- `InvMixColumns` on one column (R167). -/
def invMixCol (a : Col) : Col :=
  ⟨mixByte 14 11 13 9 a, mixByte 9 14 11 13 a, mixByte 13 9 14 11 a, mixByte 11 13 9 14 a⟩

/-- `MixColumns` (R167). -/
def mixColumns (s : Block) : Block := ⟨mixCol s.c0, mixCol s.c1, mixCol s.c2, mixCol s.c3⟩

/-- `InvMixColumns` (R167). -/
def invMixColumns (s : Block) : Block := ⟨invMixCol s.c0, invMixCol s.c1, invMixCol s.c2, invMixCol s.c3⟩

/-- `RCON[1..10]` (R169). -/
def rcon (i : Nat) : Byte :=
  byteAt [0x01#8, 0x02#8, 0x04#8, 0x08#8, 0x10#8, 0x20#8, 0x40#8, 0x80#8, 0x1b#8, 0x36#8] (i - 1)

/-- `w[i]` of a key schedule. -/
def wordAt (w : List Col) (i : Nat) : Col := w.getD i ⟨0, 0, 0, 0⟩

/-- RotWord, SubWord and the round constant, for a position i with `i mod 4 = 0` (R169). -/
def scheduleCore (i : Nat) (t : Col) : Col :=
  ⟨sbox t.b1 ^^^ rcon (i / 4), sbox t.b2, sbox t.b3, sbox t.b0⟩

/-- The word after the words `w`: `w[i] <- w[i-4] xor t` with t from `w[i-1]` (R169). -/
def nextWord (w : List Col) : Col :=
  let i := w.length
  let t := wordAt w (i - 1)
  xorCol (wordAt w (i - 4)) (if i % 4 = 0 then scheduleCore i t else t)

/-- `n` more words of the schedule. -/
def expandWords : Nat → List Col → List Col
  | 0, w => w
  | n + 1, w => expandWords n (w ++ [nextWord w])

/-- The key schedule: 44 words from the 16-byte key (R169). -/
def keyExpansion (key : List Byte) : List Col :=
  expandWords 40 [colAt key 0, colAt key 4, colAt key 8, colAt key 12]

/-- The four words `w[4r .. 4r+4)` a round adds (R168). -/
def roundKey (w : List Col) (r : Nat) : Block :=
  ⟨wordAt w (4 * r), wordAt w (4 * r + 1), wordAt w (4 * r + 2), wordAt w (4 * r + 3)⟩

/-- `AddRoundKey(s, r)` (R168). -/
def addRoundKey (w : List Col) (r : Nat) (s : Block) : Block := xorBlock s (roundKey w r)

/-- One of the rounds 1..9 of encryption (R170). -/
def encRound (w : List Col) (s : Block) (r : Nat) : Block := addRoundKey w r (mixColumns (shiftRows (subBytes s)))

/-- One of the rounds 9..1 of decryption (R171). -/
def decRound (w : List Col) (s : Block) (r : Nat) : Block := invMixColumns (addRoundKey w r (invSubBytes (invShiftRows s)))

/-- Encryption of one loaded block under a key schedule (R170). -/
def cipher (w : List Col) (b : Block) : Block :=
  let s := [1, 2, 3, 4, 5, 6, 7, 8, 9].foldl (encRound w) (addRoundKey w 0 b)
  addRoundKey w 10 (shiftRows (subBytes s))

/-- Decryption of one loaded block under a key schedule: the inverse cipher (R171). -/
def invCipher (w : List Col) (b : Block) : Block :=
  let s := [9, 8, 7, 6, 5, 4, 3, 2, 1].foldl (decRound w) (addRoundKey w 10 b)
  addRoundKey w 0 (invSubBytes (invShiftRows s))

/-- `AES_E(K, in)` (R170). -/
def aesE (key inp : List Byte) : List Byte := storeBlock (cipher (keyExpansion key) (loadBlock inp))

/-- `AES_D(K, in)` (R171). -/
def aesD (key inp : List Byte) : List Byte := storeBlock (invCipher (keyExpansion key) (loadBlock inp))

end Sys2Proof.Machine
end

