-- ==== Sys2Proof/Machine/Cbc.lean ====
section
/-! DEFINITION. CBC over the block cipher and the zero padding (41_cipher R177 to R179, R181). Every chain starts from the
fixed IV; no chaining value outlives a command (R177). -/

namespace Sys2Proof.Machine

/-- Bytewise xor of two sequences of equal length (R11). -/
def xorBytes (a b : List Byte) : List Byte := List.zipWith (· ^^^ ·) a b

/-- The loop of `CBC_E` over the next `k` blocks, with `prev` the chaining value (R178). -/
def cbcEncFrom (key : List Byte) : Nat → List Byte → List Byte → List Byte
  | 0, _, _ => []
  | k + 1, prev, p =>
    let c := aesE key (xorBytes (p.take 16) prev)
    c ++ cbcEncFrom key k c (p.drop 16)

/-- The loop of `CBC_D` over the next `k` blocks, with `prev` the chaining value (R179). -/
def cbcDecFrom (key : List Byte) : Nat → List Byte → List Byte → List Byte
  | 0, _, _ => []
  | k + 1, prev, c =>
    xorBytes (aesD key (c.take 16)) prev ++ cbcDecFrom key k (c.take 16) (c.drop 16)

/-- `CBC_E(K, IV, P)` for a plaintext of 16k bytes (R178). -/
def cbcE (key iv p : List Byte) : List Byte := cbcEncFrom key (p.length / 16) iv p

/-- `CBC_D(K, IV, C)` for a ciphertext of 16k bytes (R179). -/
def cbcD (key iv c : List Byte) : List Byte := cbcDecFrom key (c.length / 16) iv c

/-- `n + (16 - (n mod 16))`, the length of `pad` of n bytes (R181). -/
def paddedLength (n : Nat) : Nat := n + (16 - n % 16)

/-- `pad(s) = s ++ zeros(16 - (n mod 16))`: 1 to 16 zero bytes, always (R181). -/
def pad (bs : List Byte) : List Byte := bs ++ zeros (16 - bs.length % 16)

end Sys2Proof.Machine
end

