-- ==== Sys2Proof/Config.lean ====
section
/-! DEFINITION. What an implementation of the CFC fixes: the parameters of 00_scope R8, and the model's one source of free
values. "A model takes each one as an argument": the parameters are a record `Config`, and the State carries the record of
the block it is a state of (log 1), so a claim about every state is a claim about every block. -/

namespace Sys2Proof

/-- Length of a frame header in bytes, `HDR_LEN` (R8). -/
def hdrLen : Nat := 0x38

/-- The initial value of every checksum, `CKSUM_SEED` (R8, R120). -/
def cksumSeed : Half := 0xBEAF#16

/-- The cipher's block size in bytes, `BLOCK` (R8, R160). -/
def blockBytes : Nat := 16

/-- The parameters of one CFC (R8). -/
structure Config where
  /-- `FBUF_BYTES`, the size of the frame buffer (D4). -/
  fbufBytes : Nat
  /-- `PBUF_BYTES`, the size of the payload buffer (D4). -/
  pbufBytes : Nat
  /-- `MAGIC`, the preamble BUILD writes at frame bytes 0x00..0x07 (D9). -/
  magic : Vector Byte 8
  /-- `DEFAULT_KEY`, the session key after reset and after KEYRST (D10). -/
  defaultKey : Vector Byte 16
  /-- `DEFAULT_IV`, the fixed IV (D11). -/
  defaultIv : Vector Byte 16
  /-- `SEQ_INIT`, the reset value of the sequence counter (D15). -/
  seqInit : Half
  deriving DecidableEq, Repr

/-- The legal values R8 gives for the buffer sizes; the other parameters take any value. -/
abbrev Config.Legal (c : Config) : Prop :=
  (c.fbufBytes % 16 = 0 ∧ 0x48 ≤ c.fbufBytes ∧ c.fbufBytes ≤ 4096) ∧
    (c.pbufBytes % 16 = 0 ∧ 32 ≤ c.pbufBytes ∧ c.pbufBytes ≤ 4096)

/-- The parameters at the defaults and suggested values of R8: the sizes and `SEQ_INIT` are the spec's defaults (log 1);
MAGIC, DEFAULT_KEY and DEFAULT_IV are values the spec suggests from general knowledge. PRESUMED (log 2, 3, 4), unsafe for a
claim that needs these values of a real device. -/
def Config.suggested : Config where
  fbufBytes := 2048
  pbufBytes := 2048
  magic := #v[0x5a#8, 0xa5#8, 0xaa#8, 0x55#8, 0x5a#8, 0xa5#8, 0xaa#8, 0x55#8]
  defaultKey := #v[0x09#8, 0x76#8, 0x28#8, 0x34#8, 0x3f#8, 0xe9#8, 0x9e#8, 0x23#8,
    0x76#8, 0x5c#8, 0x15#8, 0x13#8, 0xac#8, 0xcf#8, 0x8b#8, 0x02#8]
  defaultIv := #v[0x56#8, 0x2e#8, 0x17#8, 0x99#8, 0x6d#8, 0x09#8, 0x3d#8, 0x28#8,
    0xdd#8, 0xb3#8, 0xba#8, 0x69#8, 0x5a#8, 0x2e#8, 0x6f#8, 0x58#8]
  seqInit := 0x0000#16

/-- The free value of a read: what the host reads where R281 calls the data unspecified, or where the spec states none.
It has no body, so nothing can be proved of any value of it; the argument is the State's count of values drawn so far, so
every read draws afresh (U3, log 8). Safe: a claim holds for every value. -/
opaque Config.freeRead : Nat → Word

end Sys2Proof
end

