-- ==== Sys2Proof/Machine/Bus.lean ====
section
/-! DEFINITION. The host bus: accesses, the address map, and the turns of the two agents and the reset input (20_memory R60 to
R63; 00_scope R16). -/

namespace Sys2Proof.Machine

/-- The access sizes, n in 1, 2, 4 bytes (R60). -/
inductive Size where
  | byte
  | half
  | word
  deriving DecidableEq, Repr

/-- The number of bytes of an access (R60). -/
def Size.bytes : Size → Nat
  | .byte => 1
  | .half => 2
  | .word => 4

/-- One host access: a byte address, a size, a direction, and for a write the data, whose low n bytes are stored (R60,
R103). -/
inductive Access where
  | read (addr : BusAddr) (size : Size)
  | write (addr : BusAddr) (size : Size) (data : Word)
  deriving DecidableEq, Repr

/-- Who moves next: the host with an access, the engine, or the reset input with a new level (R16, R260). The list of turns in
State is the scheduler's free choice (R276, log 7). -/
inductive Turn where
  | host (access : Access)
  | engine
  | rst (level : Bool)
  deriving DecidableEq, Repr

/-- What an address belongs to (R63). -/
inductive Region where
  /-- The register window, with the offset in it. -/
  | registers (offset : Nat)
  /-- A mapped byte of FBUF or PBUF. -/
  | buffer
  /-- No register and no buffer byte. -/
  | unmapped
  deriving DecidableEq, Repr

/-- `FBUF_BASE` (R63). -/
def fbufBase : Nat := 0x1000

/-- `PBUF_BASE` (R63). -/
def pbufBase : Nat := 0x2000

/-- The address is one of `FB[0..FBUF_BYTES)` (R63). -/
def inFbuf (c : Config) (a : Nat) : Bool := fbufBase ≤ a && a < fbufBase + c.fbufBytes

/-- The address is one of `PB[0..PBUF_BYTES)` (R63). -/
def inPbuf (c : Config) (a : Nat) : Bool := pbufBase ≤ a && a < pbufBase + c.pbufBytes

/-- The address map (R63). -/
def region (c : Config) (a : BusAddr) : Region :=
  if a.toNat < 0x100 then .registers a.toNat
  else if inFbuf c a.toNat || inPbuf c a.toNat then .buffer
  else .unmapped

/-- `a mod n != 0` (R66). -/
def misaligned (a : BusAddr) (n : Size) : Bool := a.toNat % n.bytes != 0

end Sys2Proof.Machine
end

