-- ==== Sys2Proof/Machine/State.lean ====
section
/-! DEFINITION. The state of the CFC (10_state R20 to R47), its fault and refusal reasons, and the state after reset.
Constant registers are computed views: IV0..IV3 and CAPS come from `cfg` (R41, R43). STATUS and CTRL are held as their fields;
reserved bits read 0 and so have no storage (R22, R25). -/

namespace Sys2Proof.Machine

/-- The contents of FBUF and PBUF, as (bus address, byte) pairs with addresses strictly rising (R63). An address that is not
listed holds no value: its byte is unspecified (R262, log 5). -/
abbrev Memory := List Host.Cell

/-- The canonical form: addresses strictly rising. An unlisted address has no value, so no entry equals it. -/
abbrev Memory.wf (m : Memory) : Prop := m.Pairwise (fun x y => x.1 < y.1)

/-- The error codes that STATUS.ERR takes (R235). Codes 4..15 are never produced (U6), so the type has no others. -/
inductive ErrCode where
  /-- 0 NONE: the command completed without error. -/
  | noError
  /-- 1 ILLEGAL: the CMD word is not legal. -/
  | illegal
  /-- 2 LENGTH: a length register is out of the range the command requires. -/
  | length
  /-- 3 UNPAD: DEC with U = 1 found a last decrypted byte greater than PLEN. -/
  | unpad
  deriving DecidableEq, Repr

/-- Why the machine stops. The spec names one reason only: the use of a buffer byte that holds no specified value, "a fault of
the model, not a value" (R262, U1). Both constructors carry the address of the first such byte. -/
inductive Fault where
  /-- Raised by a command (CSUMF, CSUMP, ENC, DEC, BUILD, VALIDATE, PARSE, AUTHKEY) that reads an unspecified byte. Safe: the
  hardware goes on with some value, the model stops. -/
  | commandReadsUnspecified (addr : Nat)
  /-- Raised by a host read, while BUSY = 0, of an unspecified byte. Safe: the hardware returns some value, the model stops. -/
  | hostReadsUnspecified (addr : Nat)
  deriving DecidableEq, Repr

/-- Why the model would refuse an instruction. No meaning refuses; the constructor is the host's. -/
inductive Refusal where
  /-- An instruction without a meaning, rejected by name in exec's arm. No arm uses it. Safe. -/
  | notModelled (mnemonic : String)
  deriving DecidableEq, Repr

/-- The whole state of the block. -/
structure State where
  /-- The parameters of the block (R8); no step changes them (log 1). -/
  cfg : Config
  /-- CMD: the last word latched (R24). -/
  cmd : Word
  /-- STATUS.BUSY (R26). -/
  busy : Bool
  /-- STATUS.DONE (R27). -/
  done : Bool
  /-- STATUS.VALID (R28). -/
  valid : Bool
  /-- STATUS.ERR (R29). -/
  err : ErrCode
  /-- STATUS.OVERRUN (R30). -/
  overrun : Bool
  /-- STATUS.BUSERR (R31). -/
  buserr : Bool
  /-- CTRL.IE (R32). -/
  ie : Bool
  /-- FLEN (R33). -/
  flen : Half
  /-- PLEN (R34). -/
  plen : Half
  /-- DEVTYPE (R35). -/
  devtype : Half
  /-- TAG (R36). -/
  tag : Half
  /-- SEQ (R37). -/
  seq : Half
  /-- MAC_LO (R38). -/
  macLo : Word
  /-- MAC_HI (R38). -/
  macHi : Half
  /-- DEVID (R39). -/
  devid : Word
  /-- CKSUM (R42). -/
  cksum : Half
  /-- PCKSUM (R42). -/
  pcksum : Half
  /-- KEY0 (R40). -/
  key0 : Word
  /-- KEY1 (R40). -/
  key1 : Word
  /-- KEY2 (R40). -/
  key2 : Word
  /-- KEY3 (R40). -/
  key3 : Word
  /-- RX_DEVTYPE (R44). -/
  rxDevtype : Half
  /-- RX_TAG (R44). -/
  rxTag : Half
  /-- RX_SEQ (R44). -/
  rxSeq : Half
  /-- RX_MAC_LO (R44). -/
  rxMacLo : Word
  /-- RX_MAC_HI (R44). -/
  rxMacHi : Half
  /-- RX_DEVID (R44). -/
  rxDevid : Word
  /-- RX_ERRCODE (R44). -/
  rxErrcode : Half
  /-- RX_PCKSUM (R44). -/
  rxPcksum : Half
  /-- RX_FCKSUM (R44). -/
  rxFcksum : Half
  /-- FBUF and PBUF (R45). -/
  mem : Memory
  /-- The level of the `rst` input (R260). -/
  rst : Bool
  /-- The model's own: the data the bus returned for the last host read (R60, log 10). -/
  rdata : Word
  /-- The model's own: the turns still to come, the scheduler's free choice (R276, log 7). -/
  turns : List Turn
  /-- The model's own: how many free values have been drawn (log 8). -/
  freeCount : Nat
  deriving DecidableEq, Repr

/-- Word n of a 16-byte sequence in KEYn or IVn order: `LE32(s[4n..4n+4))` (R40, R41, R261). -/
def wordOf (bytes : List Byte) (n : Nat) : Word := le32 (slice bytes (4 * n) (4 * n + 4))

/-- A block with parameters `c` right after power-up and reset, `rst` released: every register at the value of R23 and R261,
both buffers unspecified (R262), idle (R263). The model's own fields start at: no turns, read data 0, no free value drawn
(DESIGN CHOICE, log 7, 8, 10). -/
def State.powerUp (c : Config) : State where
  cfg := c
  cmd := 0
  busy := false
  done := false
  valid := false
  err := .noError
  overrun := false
  buserr := false
  ie := false
  flen := 0
  plen := 0
  devtype := 0
  tag := 0
  seq := c.seqInit
  macLo := 0
  macHi := 0
  devid := 0
  cksum := 0
  pcksum := 0
  key0 := wordOf c.defaultKey.toList 0
  key1 := wordOf c.defaultKey.toList 1
  key2 := wordOf c.defaultKey.toList 2
  key3 := wordOf c.defaultKey.toList 3
  rxDevtype := 0
  rxTag := 0
  rxSeq := 0
  rxMacLo := 0
  rxMacHi := 0
  rxDevid := 0
  rxErrcode := 0
  rxPcksum := 0
  rxFcksum := 0
  mem := []
  rst := false
  rdata := 0
  turns := []
  freeCount := 0

/-- The machine right after reset, with the parameters at the spec's defaults and suggested values (R8, log 1 to log 4). -/
def State.reset : State := State.powerUp Config.suggested

end Sys2Proof.Machine
end

