-- ==== Sys2Proof/Machine/Ops.lean ====
section
/-! DEFINITION. The named operations over the buffers and the control state: byte and range access, issue, completion, raising an
error (the CFC's whole exception mechanism, R13, R231, R242) and the reset input. -/

namespace Sys2Proof.Machine

/-- One byte of the buffers, if it holds a specified value (R12, R262). -/
def Memory.read : Memory → Nat → Option Byte
  | [], _ => none
  | (x, b) :: m, a => if x = a then some b else Memory.read m a

/-- `FB[i] <- v` or `PB[i] <- v`, keeping the addresses rising (R12). -/
def Memory.write : Memory → Nat → Byte → Memory
  | [], a, v => [(a, v)]
  | (x, b) :: m, a, v =>
    if a < x then (a, v) :: (x, b) :: m
    else if a = x then (a, v) :: m
    else (x, b) :: Memory.write m a v

/-- The `n` bytes from address `a` on, or the address of the first that is unspecified (R262, log 15). -/
def Memory.readRange (m : Memory) : Nat → Nat → Except Nat (List Byte)
  | _, 0 => .ok []
  | a, n + 1 =>
    match m.read a with
    | none => .error a
    | some b =>
      match Memory.readRange m (a + 1) n with
      | .error e => .error e
      | .ok bs => .ok (b :: bs)

/-- The bytes `bs` stored from address `a` on. -/
def Memory.writeRange : Memory → Nat → List Byte → Memory
  | m, _, [] => m
  | m, a, b :: bs => Memory.writeRange (m.write a b) (a + 1) bs

/-- The outcome of a step of this machine. -/
abbrev Result := Host.Outcome State Fault Refusal

/-- A command's operand read: the `n` buffer bytes from address `a` on are given to `k`; an unspecified one is a fault of the
model (R262, U1). -/
def readOperand (s : State) (a n : Nat) (k : List Byte → Result) : Result :=
  match s.mem.readRange a n with
  | .ok bs => k bs
  | .error x => .fault (.commandReadsUnspecified x)

/-- Issue of a command word (R230): latched, BUSY set, DONE cleared, nothing else. -/
def issue (w : Word) (s : State) : State := { s with cmd := w, busy := true, done := false }

/-- Completion of a command with a result code (R231): ERR written, BUSY cleared, DONE set. -/
def complete (code : ErrCode) (s : State) : State := { s with err := code, busy := false, done := true }

/-- `raise Error(code)` (R13, R232): the command ends, and its only effects are the code and the completion. -/
def raiseError (code : ErrCode) (s : State) : Result := .next (complete code s)

/-- The end of a command that raised nothing (R231). -/
def finish (s : State) : Result := .next (complete .noError s)

/-- What the reset input does to the block (R260, R262): every register at its reset value, a command in flight abandoned; the
buffers unchanged if BUSY = 0 and unspecified if BUSY = 1 (U2, log 6). The parameters, the pin's level, the turns to come and the
bus's read data are no registers and stay. -/
def resetRegisters (s : State) : State :=
  { State.powerUp s.cfg with
    mem := if s.busy then [] else s.mem
    rst := s.rst
    rdata := s.rdata
    turns := s.turns
    freeCount := s.freeCount }

/-- A new level of `rst`: the registers are reset while it is asserted and when it is released; a level that stays released
does nothing (R260). -/
def setRst (level : Bool) (s : State) : State :=
  if level || s.rst then { resetRegisters s with rst := level } else s

end Sys2Proof.Machine
end

