-- ==== Sys2Proof/Machine/Operands.lean ====
section
/-! DEFINITION. The implicit operands of the commands (30_encoding R96): the byte sequences held in registers, and the buffer
ranges a length register names. -/

namespace Sys2Proof.Machine

/-- `KEYBYTES[4n+j] = R.KEYn[8j+7:8j]` (R40). -/
def keyBytes (s : State) : List Byte :=
  bytesLE32 s.key0 ++ bytesLE32 s.key1 ++ bytesLE32 s.key2 ++ bytesLE32 s.key3

/-- The key registers loaded from 16 bytes (R40, R213, R216). -/
def setKey (bytes : List Byte) (s : State) : State :=
  { s with
    key0 := wordOf bytes 0
    key1 := wordOf bytes 1
    key2 := wordOf bytes 2
    key3 := wordOf bytes 3 }

/-- `IVBYTES`, equal to `DEFAULT_IV` at all times (R41). -/
def ivBytes (s : State) : List Byte := s.cfg.defaultIv.toList

/-- `MACBYTES`: MAC_LO's four bytes, then MAC_HI's two (R38). -/
def macBytes (s : State) : List Byte := bytesLE32 s.macLo ++ bytesLE16 s.macHi

/-- `R.FLEN` as a length. -/
def frameLength (s : State) : Nat := s.flen.toNat

/-- `R.PLEN` as a length. -/
def payloadLength (s : State) : Nat := s.plen.toNat

/-- The operand `FB[lo..lo+n)`. -/
def readFrame (s : State) (lo n : Nat) (k : List Byte → Result) : Result := readOperand s (fbufBase + lo) n k

/-- The operand `PB[0..n)`. -/
def readPayload (s : State) (n : Nat) (k : List Byte → Result) : Result := readOperand s pbufBase n k

/-- `FB[0..len(bs)) <- bs`. -/
def writeFrame (bs : List Byte) (s : State) : State := { s with mem := s.mem.writeRange fbufBase bs }

/-- `PB[lo..lo+len(bs)) <- bs`. -/
def writePayload (lo : Nat) (bs : List Byte) (s : State) : State :=
  { s with mem := s.mem.writeRange (pbufBase + lo) bs }

end Sys2Proof.Machine
end

