-- ==== Sys2Proof/Machine/Cipher.lean ====
section
/-! DEFINITION. The Session Cipher's commands: PAD, ENC and DEC (41_cipher R184 to R197). The key and the IV are read once, at the
start, and the schedule is expanded for the one command (R176). -/

namespace Sys2Proof.Machine

/-- PAD (R184): `PB[n..m) <- zeros`, PLEN <- m, with m the padded length. LENGTH when PLEN or m exceeds PBUF_BYTES. -/
def execPad (s : State) : Result :=
  let n := payloadLength s
  if n > s.cfg.pbufBytes then raiseError .length s
  else if paddedLength n > s.cfg.pbufBytes then raiseError .length s
  else finish { writePayload n (zeros (paddedLength n - n)) s with plen := BitVec.ofNat 16 (paddedLength n) }

/-- The LENGTH condition of ENC and DEC: PLEN exceeds PBUF_BYTES or is no multiple of 16 (R188, R192). -/
def cipherLengthBad (s : State) : Bool := payloadLength s > s.cfg.pbufBytes || payloadLength s % 16 != 0

/-- ENC (R188): `PB[0..n) <- CBC_E(K, IV, PB[0..n))`; PLEN stays. -/
def execEnc (s : State) : Result :=
  if cipherLengthBad s then raiseError .length s
  else readPayload s (payloadLength s) fun p => finish (writePayload 0 (cbcE (keyBytes s) (ivBytes s) p) s)

/-- What DEC does with the plaintext `p` (R192, R194, R195): with U = 1 and a last byte, that byte v is the number of bytes to
strip, and v > PLEN raises UNPAD with nothing written; otherwise the plaintext is stored. -/
def storeDecrypted (unpad : Bool) (p : List Byte) (s : State) : Result :=
  let n := payloadLength s
  if unpad && n > 0 then
    let v := (byteAt p (n - 1)).toNat
    if v > n then raiseError .unpad s
    else finish { writePayload 0 p s with plen := BitVec.ofNat 16 (n - v) }
  else finish (writePayload 0 p s)

/-- DEC (R192): CBC decryption in place, with the flag U. -/
def execDec (unpad : Bool) (s : State) : Result :=
  if cipherLengthBad s then raiseError .length s
  else readPayload s (payloadLength s) fun c => storeDecrypted unpad (cbcD (keyBytes s) (ivBytes s) c) s

end Sys2Proof.Machine
end

