-- ==== Sys2Proof/Machine/Checksum.lean ====
section
/-! DEFINITION. The checksum of 40_checksum_frame R120 and its form with the checksum field zeroed, R122. -/

namespace Sys2Proof.Machine

/-- `csum(s) = (0xBEAF + s[0] + ... + s[len(s)-1]) mod 2^16`, each byte added as an unsigned 8-bit value (R120). -/
def csum (bs : List Byte) : Half := bs.foldl (fun c b => c + b.setWidth 16) cksumSeed

/-- `csumZ(F) = csum(F[0..0x20) ++ zeros(2) ++ F[0x22..len(F)))` (R122). -/
def csumZ (f : List Byte) : Half := csum (f.take 0x20 ++ zeros 2 ++ f.drop 0x22)

end Sys2Proof.Machine
end

