-- ==== Sys2Proof/Machine/Frame.lean ====
section
/-! DEFINITION. The Frame Codec's commands: CSUMF, CSUMP, BUILD, VALIDATE and PARSE (40_checksum_frame R120 to R150). -/

namespace Sys2Proof.Machine

/-- CSUMF: `CKSUM <- csum(FB[0..FLEN))`; LENGTH when FLEN > FBUF_BYTES (R124). -/
def execCsumf (s : State) : Result :=
  if frameLength s > s.cfg.fbufBytes then raiseError .length s
  else readFrame s 0 (frameLength s) fun f => finish { s with cksum := csum f }

/-- CSUMP: `CKSUM <- csum(PB[0..PLEN))`; LENGTH when PLEN > PBUF_BYTES (R127). -/
def execCsump (s : State) : Result :=
  if payloadLength s > s.cfg.pbufBytes then raiseError .length s
  else readPayload s (payloadLength s) fun p => finish { s with cksum := csum p }

/-- The 0x38 header bytes BUILD makes (R123, R130): MAGIC, 24 zeros, the frame checksum, a zero error code, the transmit
registers with the sequence number `seq`, the payload checksum `pc`, two zeros. -/
def frameHeader (s : State) (fc seq pc : Half) : List Byte :=
  s.cfg.magic.toList ++ zeros 24 ++ bytesLE16 fc ++ zeros 2 ++ bytesLE16 s.devtype ++ bytesLE16 s.tag ++
    bytesLE16 seq ++ macBytes s ++ bytesLE32 s.devid ++ bytesLE16 pc ++ zeros 2

/-- The padded length m of BUILD's payload of n bytes: 0 without a payload (R130, R132). -/
def buildPayloadLength (n : Nat) : Nat := if n = 0 then 0 else paddedLength n

/-- The padded plaintext of BUILD: nothing without a payload (R131, R132). -/
def buildPlaintext (p : List Byte) : List Byte := if p = [] then [] else pad p

/-- The payload checksum of BUILD: 0 without a payload (R131, R132). -/
def buildPayloadChecksum (p : List Byte) : Half := if p = [] then 0 else csum (pad p)

/-- The sequence number BUILD places: `(SEQ + 1) mod 2^16` with A = 1, SEQ with A = 0 (R133). -/
def buildSeq (autoseq : Bool) (s : State) : Half := if autoseq then s.seq + 1 else s.seq

/-- The frame checksum BUILD computes last, over the whole frame with bytes 0x20..0x21 zero (R134). -/
def buildChecksum (autoseq : Bool) (p : List Byte) (s : State) : Half :=
  csum (frameHeader s 0 (buildSeq autoseq s) (buildPayloadChecksum p) ++ cbcE (keyBytes s) (ivBytes s) (buildPlaintext p))

/-- The frame BUILD stores, for the payload bytes `p` (R130, R134). -/
def buildFrame (autoseq : Bool) (p : List Byte) (s : State) : List Byte :=
  frameHeader s (buildChecksum autoseq p s) (buildSeq autoseq s) (buildPayloadChecksum p) ++
    cbcE (keyBytes s) (ivBytes s) (buildPlaintext p)

/-- BUILD (R130 to R135): a frame in `FB[0..0x38+m)`, FLEN, CKSUM, PCKSUM, and SEQ when A = 1; PBUF and PLEN stay. LENGTH when
PLEN > PBUF_BYTES or the frame does not fit in FBUF; nothing is written then. -/
def execBuild (autoseq : Bool) (s : State) : Result :=
  let n := payloadLength s
  if n > s.cfg.pbufBytes then raiseError .length s
  else if hdrLen + buildPayloadLength n > s.cfg.fbufBytes then raiseError .length s
  else readPayload s n fun p =>
    finish { writeFrame (buildFrame autoseq p s) s with
      flen := BitVec.ofNat 16 (hdrLen + buildPayloadLength n)
      cksum := buildChecksum autoseq p s
      pcksum := buildPayloadChecksum p
      seq := buildSeq autoseq s }

/-- VALIDATE (R140, R141): VALID tells whether csumZ of the frame equals the checksum stored at 0x20..0x21; CKSUM is the value
computed; FBUF is not written. LENGTH, with VALID cleared, when FLEN < 0x38 or FLEN > FBUF_BYTES. -/
def execValidate (s : State) : Result :=
  let l := frameLength s
  if l < hdrLen || l > s.cfg.fbufBytes then raiseError .length { s with valid := false }
  else readFrame s 0 l fun f =>
    finish { s with valid := csumZ f == le16 (slice f 0x20 0x22), cksum := csumZ f }

/-- The RX registers loaded from the header bytes 0x20..0x35, given as `h` with h[0] the byte at 0x20 (R123, R146). -/
def loadRx (h : List Byte) (s : State) : State :=
  { s with
    rxFcksum := le16 (slice h 0x00 0x02)
    rxErrcode := le16 (slice h 0x02 0x04)
    rxDevtype := le16 (slice h 0x04 0x06)
    rxTag := le16 (slice h 0x06 0x08)
    rxSeq := le16 (slice h 0x08 0x0a)
    rxMacLo := le32 (slice h 0x0a 0x0e)
    rxMacHi := le16 (slice h 0x0e 0x10)
    rxDevid := le32 (slice h 0x10 0x14)
    rxPcksum := le16 (slice h 0x14 0x16) }

/-- PARSE (R146): the header fields into the RX registers, `PB[0..FLEN-0x38) <- FB[0x38..FLEN)`, PLEN <- FLEN - 0x38. It reads
`FB[0x20..0x36)` and `FB[0x38..FLEN)` and no other byte (R123 "not read", log 13). LENGTH when FLEN < 0x38, FLEN > FBUF_BYTES or
FLEN - 0x38 > PBUF_BYTES. -/
def execParse (s : State) : Result :=
  let l := frameLength s
  if l < hdrLen || l > s.cfg.fbufBytes || l - hdrLen > s.cfg.pbufBytes then raiseError .length s
  else readFrame s 0x20 0x16 fun h => readFrame s hdrLen (l - hdrLen) fun p =>
    finish { writePayload 0 p (loadRx h s) with plen := BitVec.ofNat 16 (l - hdrLen) }

end Sys2Proof.Machine
end

