-- ==== Sys2Proof/Machine/Session.lean ====
section
/-! DEFINITION. The session state commands: NOP, AUTHKEY and KEYRST (42_session R210 to R216). -/

namespace Sys2Proof.Machine

/-- NOP (R210): nothing but the completion. -/
def execNop (s : State) : Result := finish s

/-- AUTHKEY (R213): `DEVID <- LE32(PB[0..4))`, the key from `PB[4..20)`. LENGTH when PLEN < 20 or PLEN > PBUF_BYTES. -/
def execAuthkey (s : State) : Result :=
  let n := payloadLength s
  if n < 20 || n > s.cfg.pbufBytes then raiseError .length s
  else readPayload s 20 fun p => finish { setKey (slice p 4 20) s with devid := le32 (slice p 0 4) }

/-- KEYRST (R216): `KEYBYTES <- DEFAULT_KEY`, `DEVID <- 0`. -/
def execKeyrst (s : State) : Result := finish { setKey s.cfg.defaultKey.toList s with devid := 0 }

end Sys2Proof.Machine
end

