-- ==== Sys2Proof/Machine/Dispatch.lean ====
section
/-! DEFINITION. The meaning of every command: one arm per constructor of Instr. -/

namespace Sys2Proof.Machine

def exec (i : Instr) (s : State) : Host.Outcome State Fault Refusal :=
  match i with
  | .nop => Sys2Proof.Machine.execNop s
  | .csumf => Sys2Proof.Machine.execCsumf s
  | .csump => Sys2Proof.Machine.execCsump s
  | .pad => Sys2Proof.Machine.execPad s
  | .enc => Sys2Proof.Machine.execEnc s
  | .dec unpad => Sys2Proof.Machine.execDec unpad s
  | .build autoseq => Sys2Proof.Machine.execBuild autoseq s
  | .validate => Sys2Proof.Machine.execValidate s
  | .parse => Sys2Proof.Machine.execParse s
  | .authkey => Sys2Proof.Machine.execAuthkey s
  | .keyrst => Sys2Proof.Machine.execKeyrst s

end Sys2Proof.Machine
end

