-- ==== Sys2Proof/Machine/Flags.lean ====
section
/-! DEFINITION. The CFC's only flags: the STATUS fields (10_state R25 to R31, R46), the CTRL word and the interrupt output
(60_exceptions R240). -/

namespace Sys2Proof.Machine

/-- The 4-bit value of STATUS.ERR (R235). -/
def errBits : ErrCode → BitVec 4
  | .noError => 0
  | .illegal => 1
  | .length => 2
  | .unpad => 3

/-- The STATUS word: BUSY in bit 0, DONE in 1, VALID in 2, ERR in 7:4, OVERRUN in 8, BUSERR in 9, every other bit 0 (R25). -/
def statusWord (s : State) : Word :=
  BitVec.ofNat 32 (s.busy.toNat + 2 ^ 1 * s.done.toNat + 2 ^ 2 * s.valid.toNat + 2 ^ 4 * (errBits s.err).toNat +
    2 ^ 8 * s.overrun.toNat + 2 ^ 9 * s.buserr.toNat)

/-- A host write to STATUS clears each W1C field whose bit is 1 in the data and changes nothing else (R25). -/
def clearStatus (data : Word) (s : State) : State :=
  { s with
    done := s.done && !data.getLsbD 1
    overrun := s.overrun && !data.getLsbD 8
    buserr := s.buserr && !data.getLsbD 9 }

/-- The CTRL word: IE in bit 0, zeros (R32). -/
def ctrlWord (s : State) : Word := BitVec.ofNat 32 s.ie.toNat

/-- The interrupt output: `irq = R.CTRL.IE and R.STATUS.DONE` (R240). -/
def irq (s : State) : Bool := s.ie && s.done

end Sys2Proof.Machine
end

