-- ==== Sys2Proof/Machine/Registers.lean ====
section
/-! DEFINITION. The register map of 10_state R23: offsets, names, what a read returns and what a host write does. -/

namespace Sys2Proof.Machine

/-- The registers of R23, in the order of their offsets. -/
inductive Reg where
  | cmd
  | status
  | ctrl
  | flen
  | plen
  | devtype
  | tag
  | seq
  | macLo
  | macHi
  | devid
  | cksum
  | pcksum
  | caps
  | key0
  | key1
  | key2
  | key3
  | iv0
  | iv1
  | iv2
  | iv3
  | rxDevtype
  | rxTag
  | rxSeq
  | rxMacLo
  | rxMacHi
  | rxDevid
  | rxErrcode
  | rxPcksum
  | rxFcksum
  deriving DecidableEq, Repr

/-- The offset of a register in the window (R23). -/
def regOffset : Reg → Nat
  | .cmd => 0x000
  | .status => 0x004
  | .ctrl => 0x008
  | .flen => 0x00C
  | .plen => 0x010
  | .devtype => 0x014
  | .tag => 0x018
  | .seq => 0x01C
  | .macLo => 0x020
  | .macHi => 0x024
  | .devid => 0x028
  | .cksum => 0x02C
  | .pcksum => 0x030
  | .caps => 0x034
  | .key0 => 0x040
  | .key1 => 0x044
  | .key2 => 0x048
  | .key3 => 0x04C
  | .iv0 => 0x050
  | .iv1 => 0x054
  | .iv2 => 0x058
  | .iv3 => 0x05C
  | .rxDevtype => 0x060
  | .rxTag => 0x064
  | .rxSeq => 0x068
  | .rxMacLo => 0x06C
  | .rxMacHi => 0x070
  | .rxDevid => 0x074
  | .rxErrcode => 0x078
  | .rxPcksum => 0x07C
  | .rxFcksum => 0x080

/-- The register's name, as R23 and the host scripts write it (R100). -/
def regName : Reg → String
  | .cmd => "CMD"
  | .status => "STATUS"
  | .ctrl => "CTRL"
  | .flen => "FLEN"
  | .plen => "PLEN"
  | .devtype => "DEVTYPE"
  | .tag => "TAG"
  | .seq => "SEQ"
  | .macLo => "MAC_LO"
  | .macHi => "MAC_HI"
  | .devid => "DEVID"
  | .cksum => "CKSUM"
  | .pcksum => "PCKSUM"
  | .caps => "CAPS"
  | .key0 => "KEY0"
  | .key1 => "KEY1"
  | .key2 => "KEY2"
  | .key3 => "KEY3"
  | .iv0 => "IV0"
  | .iv1 => "IV1"
  | .iv2 => "IV2"
  | .iv3 => "IV3"
  | .rxDevtype => "RX_DEVTYPE"
  | .rxTag => "RX_TAG"
  | .rxSeq => "RX_SEQ"
  | .rxMacLo => "RX_MAC_LO"
  | .rxMacHi => "RX_MAC_HI"
  | .rxDevid => "RX_DEVID"
  | .rxErrcode => "RX_ERRCODE"
  | .rxPcksum => "RX_PCKSUM"
  | .rxFcksum => "RX_FCKSUM"

/-- Every register, in the order of R23. -/
def allRegs : List Reg :=
  [.cmd, .status, .ctrl, .flen, .plen, .devtype, .tag, .seq, .macLo, .macHi, .devid, .cksum, .pcksum, .caps,
    .key0, .key1, .key2, .key3, .iv0, .iv1, .iv2, .iv3,
    .rxDevtype, .rxTag, .rxSeq, .rxMacLo, .rxMacHi, .rxDevid, .rxErrcode, .rxPcksum, .rxFcksum]

/-- The register at an offset, if it is not a reserved one (R22, R23). -/
def regAt (offset : Nat) : Option Reg := allRegs.find? (fun r => regOffset r == offset)

/-- CAPS: FBUF_BYTES in [15:0], PBUF_BYTES in [31:16] (R43). -/
def capsWord (s : State) : Word := BitVec.ofNat 32 (s.cfg.fbufBytes + 65536 * s.cfg.pbufBytes)

/-- The value of a register, its unused high bits zero (R22, R65). -/
def readReg (s : State) : Reg → Word
  | .cmd => s.cmd
  | .status => statusWord s
  | .ctrl => ctrlWord s
  | .flen => s.flen.setWidth 32
  | .plen => s.plen.setWidth 32
  | .devtype => s.devtype.setWidth 32
  | .tag => s.tag.setWidth 32
  | .seq => s.seq.setWidth 32
  | .macLo => s.macLo
  | .macHi => s.macHi.setWidth 32
  | .devid => s.devid
  | .cksum => s.cksum.setWidth 32
  | .pcksum => s.pcksum.setWidth 32
  | .caps => capsWord s
  | .key0 => s.key0
  | .key1 => s.key1
  | .key2 => s.key2
  | .key3 => s.key3
  | .iv0 => wordOf (ivBytes s) 0
  | .iv1 => wordOf (ivBytes s) 1
  | .iv2 => wordOf (ivBytes s) 2
  | .iv3 => wordOf (ivBytes s) 3
  | .rxDevtype => s.rxDevtype.setWidth 32
  | .rxTag => s.rxTag.setWidth 32
  | .rxSeq => s.rxSeq.setWidth 32
  | .rxMacLo => s.rxMacLo
  | .rxMacHi => s.rxMacHi.setWidth 32
  | .rxDevid => s.rxDevid
  | .rxErrcode => s.rxErrcode.setWidth 32
  | .rxPcksum => s.rxPcksum.setWidth 32
  | .rxFcksum => s.rxFcksum.setWidth 32

/-- What a performed host write does to the block (R65): CMD issues (R24, R230), STATUS clears its W1C fields (R25), CTRL takes
IE (R32), an RW register takes the written bits of its width, an RO register ignores the write (R22). -/
def writeReg (data : Word) (s : State) : Reg → State
  | .cmd => issue data s
  | .status => clearStatus data s
  | .ctrl => { s with ie := data.getLsbD 0 }
  | .flen => { s with flen := data.setWidth 16 }
  | .plen => { s with plen := data.setWidth 16 }
  | .devtype => { s with devtype := data.setWidth 16 }
  | .tag => { s with tag := data.setWidth 16 }
  | .seq => { s with seq := data.setWidth 16 }
  | .macLo => { s with macLo := data }
  | .macHi => { s with macHi := data.setWidth 16 }
  | .devid => { s with devid := data }
  | .cksum => s
  | .pcksum => s
  | .caps => s
  | .key0 => { s with key0 := data }
  | .key1 => { s with key1 := data }
  | .key2 => { s with key2 := data }
  | .key3 => { s with key3 := data }
  | .iv0 => s
  | .iv1 => s
  | .iv2 => s
  | .iv3 => s
  | .rxDevtype => s
  | .rxTag => s
  | .rxSeq => s
  | .rxMacLo => s
  | .rxMacHi => s
  | .rxDevid => s
  | .rxErrcode => s
  | .rxPcksum => s
  | .rxFcksum => s

/-- The registers a host write reaches also while BUSY = 1: STATUS and CTRL (R280). -/
def writableWhileBusy : Reg → Bool
  | .status => true
  | .ctrl => true
  | _ => false

/-- The registers a read returns exactly while BUSY = 1: STATUS, CTRL, CMD, CAPS and IV0..IV3 (R281). -/
def exactWhileBusy : Reg → Bool
  | .status => true
  | .ctrl => true
  | .cmd => true
  | .caps => true
  | .iv0 => true
  | .iv1 => true
  | .iv2 => true
  | .iv3 => true
  | _ => false

end Sys2Proof.Machine
end

