-- ==== Sys2Proof/Machine/HostBus.lean ====
section
/-! DEFINITION. What one host access does (20_memory R64 to R67; 70_reset R280, R281). -/

namespace Sys2Proof.Machine

/-- The little-endian value of the 1, 2 or 4 bytes of an access, zero-extended to 32 bits (R62, R64). -/
def busValue (bs : List Byte) : Word := le32 bs

/-- The bytes a write of this size stores, lowest address first: the data's low bytes (R64, R103). -/
def busBytes (n : Size) (data : Word) : List Byte := (bytesLE32 data).take n.bytes

/-- The data a read returns (R60). -/
def returnData (v : Word) (s : State) : State := { s with rdata := v }

/-- A read whose data is unspecified or not stated: a free value of at most `bits` bits, drawn fresh; no other effect (R281, U3,
log 8, log 9). -/
def returnFree (bits : Nat) (s : State) : State :=
  { s with
    rdata := BitVec.ofNat 32 ((Config.freeRead s.freeCount).toNat % 2 ^ bits)
    freeCount := s.freeCount + 1 }

/-- An access the address map does not take sets BUSERR and changes nothing else (R66, R67). -/
def busError (s : State) : State := { s with buserr := true }

/-- A write dropped because BUSY = 1 sets OVERRUN and changes nothing else (R280). -/
def dropWrite (s : State) : State := { s with overrun := true }

/-- A read of the register window at an aligned offset, size 4: a reserved offset reads 0 (R22); while BUSY = 1 only the registers
R281 lists read exactly. -/
def readWindow (offset : Nat) (s : State) : State :=
  match regAt offset with
  | none => returnData 0 s
  | some r => if s.busy && !exactWhileBusy r then returnFree 32 s else returnData (readReg s r) s

/-- A performed write to the register window at an aligned offset, size 4: a reserved offset ignores it (R22, R65); while BUSY = 1
only STATUS and CTRL take it (R280). -/
def writeWindow (offset : Nat) (data : Word) (s : State) : State :=
  match regAt offset with
  | none => if s.busy then dropWrite s else s
  | some r => if s.busy && !writableWhileBusy r then dropWrite s else writeReg data s r

/-- A host read (R64 to R67, R281). A buffer read while BUSY = 0 of a byte that holds no specified value is a fault of the model
(R262). -/
def hostRead (a : BusAddr) (n : Size) (s : State) : Result :=
  if misaligned a n then .next (returnData 0 (busError s))
  else
    match region s.cfg a with
    | .unmapped => .next (returnData 0 (busError s))
    | .registers offset =>
      if n = .word then .next (readWindow offset s) else .next (returnData 0 (busError s))
    | .buffer =>
      if s.busy then .next (returnFree (8 * n.bytes) s)
      else
        match s.mem.readRange a.toNat n.bytes with
        | .ok bs => .next (returnData (busValue bs) s)
        | .error x => .fault (.hostReadsUnspecified x)

/-- A host write (R64 to R67, R280). -/
def hostWrite (a : BusAddr) (n : Size) (data : Word) (s : State) : Result :=
  if misaligned a n then .next (busError s)
  else
    match region s.cfg a with
    | .unmapped => .next (busError s)
    | .registers offset => if n = .word then .next (writeWindow offset data s) else .next (busError s)
    | .buffer =>
      if s.busy then .next (dropWrite s)
      else .next { s with mem := s.mem.writeRange a.toNat (busBytes n data) }

/-- One host access (R60). -/
def hostAccess (access : Access) (s : State) : Result :=
  match access with
  | .read a n => hostRead a n s
  | .write a n data => hostWrite a n data s

/-- A host access while `rst` is asserted: reset takes precedence (R260, R241), so a write has no effect and nothing is
recorded; what a read returns is not stated, a free value (log 11). -/
def accessUnderReset (access : Access) (s : State) : State :=
  match access with
  | .read _ n => returnFree (8 * n.bytes) (resetRegisters s)
  | .write _ _ _ => resetRegisters s

end Sys2Proof.Machine
end

