-- ==== Sys2Proof/Machine/Engine.lean ====
section
/-! DEFINITION. The engine's step and the turns of the agents (60_exceptions R231; 00_scope R16; 70_reset R260, R276). -/

namespace Sys2Proof.Machine

/-- The engine's one step on the latched word (R231): the word is decoded first (R95); an illegal one raises ILLEGAL (R236), a
legal one runs its rule to completion. -/
def engineStep (s : State) : Result :=
  match decode s.cmd with
  | .ok i => exec i s
  | .error _ => raiseError .illegal s

/-- The engine takes its step if it has one: rst released and BUSY = 1 (R16, R260). Otherwise nothing happens, but that an
asserted rst keeps every register at its reset value. -/
def engineTurn (s : State) : Result :=
  if s.rst then .next (resetRegisters s)
  else if s.busy then engineStep s
  else .next s

/-- The host takes its next access (R16); reset takes precedence (R260). -/
def hostTurn (access : Access) (s : State) : Result :=
  if s.rst then .next (accessUnderReset access s) else hostAccess access s

/-- One turn. -/
def takeTurn (t : Turn) (s : State) : Result :=
  match t with
  | .host access => hostTurn access s
  | .engine => engineTurn s
  | .rst level => .next (setRst level s)

/-- The state with the turn just taken removed from the turns to come. -/
def withTurns (ts : List Turn) (s : State) : State := { s with turns := ts }

end Sys2Proof.Machine
end

