-- ==== Sys2Proof/Machine/Step.lean ====
section
/-! DEFINITION. One step of the block: the next turn of the schedule; with no turn to come the engine moves, so that a command
once issued completes (weak fairness, R276; log 7). -/

namespace Sys2Proof.Machine

/-- One step (R16). -/
def step (s : State) : Host.Outcome State Fault Refusal :=
  match s.turns with
  | [] => engineTurn s
  | t :: rest => takeTurn t (withTurns rest s)

/-- The state in which the command word `w` has been issued and the very next turn is the engine's: what the host's write to CMD
(R230) leaves, with rst released. The CFC fetches nothing (R21, R76): its next instruction is the word in the CMD latch
(log 14). -/
def State.withFetchWord (s : State) (nbits w : Nat) : State :=
  { s with
    cmd := BitVec.ofNat 32 (w % 2 ^ nbits)
    busy := true
    done := false
    rst := false
    turns := .engine :: s.turns }

end Sys2Proof.Machine
end

