-- ==== Sys2Proof/Machine/Script.lean ====
section
/-! DEFINITION. The host script language (30_encoding R99 to R103): the mnemonics of the commands, and the expansion of a script
line into host accesses. A script is a straight-line sequence of accesses, with `wait` unrolled to the number of reads the
schedule gives (R102, log 16). -/

namespace Sys2Proof.Machine

/-- The thirteen spellings of R99 with the commands they stand for (R94). -/
def mnemonics : List (String × Instr) :=
  [("NOP", .nop), ("CSUMF", .csumf), ("CSUMP", .csump), ("PAD", .pad), ("ENC", .enc), ("DEC", .dec false),
    ("DEC.U", .dec true), ("BUILD", .build false), ("BUILD.A", .build true), ("VALIDATE", .validate), ("PARSE", .parse),
    ("AUTHKEY", .authkey), ("KEYRST", .keyrst)]

/-- The assembler: a mnemonic's command; any other spelling is refused (R99). -/
def assemble (name : String) : Option Instr := (mnemonics.find? (fun p => p.1 == name)).map Prod.snd

/-- `ADDR`: a number, a register name, `FBUF+i` or `PBUF+i` (R100). A number is one of the 14-bit addresses of the bus (R60). -/
inductive ScriptAddr where
  | num (a : BusAddr)
  | reg (r : Reg)
  | fbuf (i : Nat)
  | pbuf (i : Nat)
  deriving DecidableEq, Repr

/-- The bus address an ADDR stands for (R100). R100 does not bound the i of `FBUF+i` and `PBUF+i`: where 0x1000 + i or 0x2000 + i
exceeds 0x3FFF, the largest address of R60, the model takes it mod 2^14. DESIGN CHOICE, unsafe (log 18). -/
def scriptAddr : ScriptAddr → BusAddr
  | .num a => a
  | .reg r => BitVec.ofNat 14 (regOffset r)
  | .fbuf i => BitVec.ofNat 14 (fbufBase + i)
  | .pbuf i => BitVec.ofNat 14 (pbufBase + i)

/-- A script line: the six accesses of R100 and the pseudo-instructions of R101. `reads` is how often a `wait` reads STATUS under
the schedule at hand. -/
inductive ScriptLine where
  | wr32 (a : ScriptAddr) (v : Word)
  | wr16 (a : ScriptAddr) (v : Half)
  | wr8 (a : ScriptAddr) (v : Byte)
  | rd32 (a : ScriptAddr)
  | rd16 (a : ScriptAddr)
  | rd8 (a : ScriptAddr)
  | cmd (m : Instr)
  | wait (reads : Nat)
  | run (m : Instr) (reads : Nat)
  | ack
  | clrerr
  | ldf (i : Nat) (bs : List Byte)
  | ldp (i : Nat) (bs : List Byte)
  | setkey (k : Vector Byte 16)
  | setmac (m : Vector Byte 6)
  | expect (a : ScriptAddr) (v : Word)
  deriving DecidableEq, Repr

/-- A size-4 write to a register. -/
def wrReg (r : Reg) (v : Word) : Access := .write (scriptAddr (.reg r)) .word v

/-- A size-4 read of a register. -/
def rdReg (r : Reg) : Access := .read (scriptAddr (.reg r)) .word

/-- One `wr8` per byte, from ADDR + i on (R101). -/
def loadBytes (at' : Nat → ScriptAddr) : Nat → List Byte → List Access
  | _, [] => []
  | i, b :: bs => .write (scriptAddr (at' i)) .byte (b.setWidth 32) :: loadBytes at' (i + 1) bs

/-- The host accesses of a line (R100, R101). -/
def expand : ScriptLine → List Access
  | .wr32 a v => [.write (scriptAddr a) .word v]
  | .wr16 a v => [.write (scriptAddr a) .half (v.setWidth 32)]
  | .wr8 a v => [.write (scriptAddr a) .byte (v.setWidth 32)]
  | .rd32 a => [.read (scriptAddr a) .word]
  | .rd16 a => [.read (scriptAddr a) .half]
  | .rd8 a => [.read (scriptAddr a) .byte]
  | .cmd m => [wrReg .cmd (encode m)]
  | .wait reads => List.replicate reads (rdReg .status)
  | .run m reads => wrReg .cmd (encode m) :: List.replicate reads (rdReg .status)
  | .ack => [wrReg .status 0x00000002#32]
  | .clrerr => [wrReg .status 0x00000302#32]
  | .ldf i bs => loadBytes .fbuf i bs
  | .ldp i bs => loadBytes .pbuf i bs
  | .setkey k => [wrReg .key0 (wordOf k.toList 0), wrReg .key1 (wordOf k.toList 1), wrReg .key2 (wordOf k.toList 2),
      wrReg .key3 (wordOf k.toList 3)]
  | .setmac m => [wrReg .macLo (le32 (slice m.toList 0 4)), wrReg .macHi ((le16 (slice m.toList 4 6)).setWidth 32)]
  | .expect a _ => [.read (scriptAddr a) .word]

/-- The accesses of a whole script, in order (R102). -/
def expandScript (lines : List ScriptLine) : List Access := lines.flatMap expand

/-- The schedule in which the engine moves right after each access (the eager one of 95_test_vectors section 3). -/
def eagerTurns (accesses : List Access) : List Turn := accesses.flatMap fun a => [.host a, .engine]

/-- The schedule in which the engine moves only when the host is done. -/
def lateTurns (accesses : List Access) : List Turn := accesses.map .host ++ [.engine]

/-- The bench check of `expect`: the data read equals the value (R101); no feature of the block. -/
def expectHolds (line : ScriptLine) (s : State) : Bool :=
  match line with
  | .expect _ v => s.rdata == v
  | _ => true

end Sys2Proof.Machine
end

