-- ==== Sys2Proof/WellFormed.lean ====
section
/-! DEFINITION. What is well formed: every command is (its only operands are the Booleans U and A, R91, so the type already
rules out every other word of R93); a host access whose data fits its size (30_encoding R100); a configuration with legal
buffer sizes (00_scope R8, `Config.Legal`). -/

namespace Sys2Proof

/-- Every command is well formed: no operand field has a value the encoding rules out (R91). -/
def Instr.wf : Instr → Bool
  | .nop => true
  | .csumf => true
  | .csump => true
  | .pad => true
  | .enc => true
  | .dec _ => true
  | .build _ => true
  | .validate => true
  | .parse => true
  | .authkey => true
  | .keyrst => true

/-- `wr16` takes a value below 2^16, `wr8` one below 2^8; a read carries no data (R100). -/
def Machine.Access.wf : Machine.Access → Bool
  | .read _ _ => true
  | .write _ n data => data.toNat < 2 ^ (8 * n.bytes)

/-- The check of `Config.Legal` as a Boolean (R8). -/
def Config.wf (c : Config) : Bool := decide c.Legal

end Sys2Proof
end

