-- ==== Sys2Proof/Safety.lean ====
section
/-! DEFINITION. The terms the claims use: what a buffer range holds, when a command's operands are all specified (70_reset
R264), the LENGTH table of R237, the invariant of the machine, and what a safe run is. -/

namespace Sys2Proof.Machine

/-- The buffers hold the bytes `bs` from address `a` on, every one specified. -/
def HoldsBytes (m : Memory) (a : Nat) (bs : List Byte) : Prop :=
  ∀ k, k < bs.length → m.read (a + k) = some (byteAt bs k)

/-- Every byte of `[a, a+n)` holds a specified value (R262). -/
def Specified (m : Memory) (a n : Nat) : Prop := ∀ k, k < n → (m.read (a + k)).isSome

/-- Every byte outside `[a, a+n)` reads in `m'` as it reads in `m`. -/
def SameOutside (m m' : Memory) (a n : Nat) : Prop := ∀ x, (x < a ∨ a + n ≤ x) → m'.read x = m.read x

/-- The buffer ranges (address, length) a command reads when it raises no LENGTH: what R264 asks a host to establish, less the
frame bytes PARSE does not read (R123, log 13). -/
def operandRanges (i : Instr) (s : State) : List (Nat × Nat) :=
  match i with
  | .nop => []
  | .csumf => [(fbufBase, frameLength s)]
  | .csump => [(pbufBase, payloadLength s)]
  | .pad => []
  | .enc => [(pbufBase, payloadLength s)]
  | .dec _ => [(pbufBase, payloadLength s)]
  | .build _ => [(pbufBase, payloadLength s)]
  | .validate => [(fbufBase, frameLength s)]
  | .parse => [(fbufBase + 0x20, 0x16), (fbufBase + hdrLen, frameLength s - hdrLen)]
  | .authkey => [(pbufBase, 20)]
  | .keyrst => []

/-- Every byte the command would read holds a specified value (R264). -/
def CommandReady (i : Instr) (s : State) : Prop := ∀ r ∈ operandRanges i s, Specified s.mem r.1 r.2

/-- The latched word, if legal, is a command whose operands are all specified. -/
def LatchReady (s : State) : Prop := ∀ i, decode s.cmd = .ok i → CommandReady i s

/-- "Raises LENGTH when", row by row (R237), with n = PLEN, L = FLEN and m the padded length. -/
def lengthCondition (i : Instr) (s : State) : Prop :=
  match i with
  | .nop => False
  | .csumf => frameLength s > s.cfg.fbufBytes
  | .csump => payloadLength s > s.cfg.pbufBytes
  | .pad => payloadLength s > s.cfg.pbufBytes ∨ paddedLength (payloadLength s) > s.cfg.pbufBytes
  | .enc => payloadLength s > s.cfg.pbufBytes ∨ payloadLength s % 16 ≠ 0
  | .dec _ => payloadLength s > s.cfg.pbufBytes ∨ payloadLength s % 16 ≠ 0
  | .build _ =>
    payloadLength s > s.cfg.pbufBytes ∨
      (payloadLength s > 0 ∧ 0x38 + paddedLength (payloadLength s) > s.cfg.fbufBytes)
  | .validate => frameLength s < 0x38 ∨ frameLength s > s.cfg.fbufBytes
  | .parse =>
    frameLength s < 0x38 ∨ frameLength s > s.cfg.fbufBytes ∨ frameLength s - 0x38 > s.cfg.pbufBytes
  | .authkey => payloadLength s < 20 ∨ payloadLength s > s.cfg.pbufBytes
  | .keyrst => False

/-- The registers and the memory as the engine and the command see them: what a host access made while BUSY = 1 may change
(OVERRUN, BUSERR, DONE, IE, the read data, the free-value count) and the turns to come are set aside (R280, R281). -/
def engineView (s : State) : State :=
  { s with
    done := false
    overrun := false
    buserr := false
    ie := false
    rdata := 0
    freeCount := 0
    turns := [] }

/-- Every listed byte is one of FBUF's or PBUF's (R63, R70). -/
def BufferBytesOnly (s : State) : Prop := ∀ x ∈ s.mem, inFbuf s.cfg x.1 = true ∨ inPbuf s.cfg x.1 = true

/-- The invariant every step keeps: legal parameters (R8); the memory in canonical form and only in the buffers (R63, R70); DONE is
0 while a command is in flight (R27, R230); while rst is asserted every register is at its reset value (R260). -/
structure Inv (s : State) : Prop where
  legal : s.cfg.Legal
  canonical : s.mem.wf
  inBuffers : BufferBytesOnly s
  busyNotDone : s.busy = true → s.done = false
  heldInReset : s.rst = true → resetRegisters s = s

/-- A safe run: no number of steps stops at a fault or a refusal. -/
def SafeRun (s : State) : Prop := ∀ k, ∃ t, Sys2Proof.core.run k s = .next t

end Sys2Proof.Machine
end

