-- ==== Sys2Proof/Certificates/Slice0/Obligations.lean ====
section
/-! DEFINITION. The statements for the provers: each formalises a numbered rule of spec/, or follows from several. A result is
stated as an equation for the whole next state, or as the memory read byte by byte together with an equation for everything but
the memory, so every statement of a result carries its frame. -/

open Sys2Proof Sys2Proof.Machine

/-! ## Encoding (30_encoding) -/

/-- Decoder and encoder agree on every 32-bit word (R90, R93): a word decodes to a command exactly when it is that command's
encoding. -/
def Obligations.DecodeEncodeAgree : Prop :=
  ∀ (w : Word) (i : Instr), decode w = .ok i ↔ (i.wf = true ∧ w = encode i)

/-- R93: legality by the four field conditions, and by the opcode table. -/
def Obligations.LegalWordsByFields : Prop :=
  ∀ w : Word,
    ((∃ i, decode w = .ok i) ↔
      (w.extractLsb' 10 22 = 0#22 ∧ (w.extractLsb' 0 8).toNat ≤ 0x0A ∧
        (w.getLsbD 8 = true → w.extractLsb' 0 8 = 0x05#8) ∧ (w.getLsbD 9 = true → w.extractLsb' 0 8 = 0x06#8))) ∧
    ((∃ i, decode w = .ok i) ↔ ∃ r ∈ opcodeTable, w &&& r.mask = r.matched)

/-- R94: the thirteen legal words and their commands; every other word is illegal. -/
def Obligations.LegalWordsAreThirteen : Prop :=
  ∀ w : Word,
    (∀ i : Instr, decode w = .ok i ↔
      (w, i) ∈ [(0x00000000#32, .nop), (0x00000001#32, .csumf), (0x00000002#32, .csump), (0x00000003#32, .pad),
        (0x00000004#32, .enc), (0x00000005#32, .dec false), (0x00000105#32, .dec true), (0x00000006#32, .build false),
        (0x00000206#32, .build true), (0x00000007#32, .validate), (0x00000008#32, .parse), (0x00000009#32, .authkey),
        (0x0000000A#32, Instr.keyrst)]) ∧
    (w ∉ [0x00000000#32, 0x00000001#32, 0x00000002#32, 0x00000003#32, 0x00000004#32, 0x00000005#32, 0x00000105#32,
        0x00000006#32, 0x00000206#32, 0x00000007#32, 0x00000008#32, 0x00000009#32, 0x0000000A#32] ↔
      ∃ e, decode w = .error e)

/-- A few words written out bit by bit from R90 and R92, and three illegal ones (R97). -/
def Obligations.SampleWordsDecode : Prop :=
  decode (0b0000000000000000000000#22 ++ 0b0#1 ++ 0b0#1 ++ 0b00000011#8) = .ok .pad ∧
    decode (0b0000000000000000000000#22 ++ 0b0#1 ++ 0b1#1 ++ 0b00000101#8) = .ok (.dec true) ∧
    decode (0b0000000000000000000000#22 ++ 0b1#1 ++ 0b0#1 ++ 0b00000110#8) = .ok (.build true) ∧
    decode (0b0000000000000000000000#22 ++ 0b0#1 ++ 0b0#1 ++ 0b00001010#8) = .ok .keyrst ∧
    decode 0x0000000B#32 = .error .reservedOp ∧ decode 0x00000205#32 = .error .autoseqNotBuild ∧
    decode 0x80000000#32 = .error .reservedBits

/-! ## Issue, completion, errors (60_exceptions, 70_reset) -/

/-- A step takes the next turn of the schedule, and the engine's turn runs the decoded command (R16, R60, R231), with rst released.
No turn left, or the engine's turn: the step is the engine's, and with BUSY = 1 and CMD decoding to i it is exec of i. The host's
turn: the step is that one access. A level of rst that stays released: nothing happens. All a step adds is to take the turn off
the schedule (the schedule, and that an exhausted one lets the engine move, are the model's own, log 7; rst as a level, log 11). -/
def Obligations.StepRunsLatchedCommand : Prop :=
  ∀ s : State, s.rst = false →
    (s.turns = [] → step s = engineTurn s) ∧
    (∀ rest, s.turns = .engine :: rest → step s = engineTurn { s with turns := rest }) ∧
    (∀ i : Instr, s.busy = true → decode s.cmd = .ok i → i.wf = true →
      (s.turns = [] → step s = exec i s) ∧
      (∀ rest, s.turns = .engine :: rest → step s = exec i { s with turns := rest })) ∧
    (∀ acc rest, s.turns = .host acc :: rest → step s = hostAccess acc { s with turns := rest }) ∧
    (∀ rest, s.turns = .rst false :: rest → step s = .next { s with turns := rest })

/-- R230: a size-4 write to CMD while BUSY = 0 latches the word, sets BUSY and clears DONE, and changes nothing else, whatever
the word. -/
def Obligations.IssueLatchesWord : Prop :=
  ∀ (s : State) (w : Word), s.busy = false →
    hostAccess (.write 0x0000#14 .word w) s = .next { s with cmd := w, busy := true, done := false }

/-- R231 and R16: while BUSY = 1 the engine's step completes the command. An illegal word completes with ILLEGAL; a legal one runs
its rule; in both cases BUSY is 0 and DONE is 1 afterwards, and CMD is unchanged. While BUSY = 0 the engine has no enabled step: its
turn changes nothing. -/
def Obligations.EngineStepCompletes : Prop :=
  ∀ s : State, s.rst = false →
    (s.busy = true →
      (∀ e, decode s.cmd = .error e → engineTurn s = .next { s with err := .illegal, busy := false, done := true }) ∧
      (∀ i, decode s.cmd = .ok i → engineTurn s = exec i s) ∧
      (∀ t, engineTurn s = .next t → t.busy = false ∧ t.done = true ∧ t.cmd = s.cmd)) ∧
    (s.busy = false → engineTurn s = .next s)

/-- R232: errors are precise. A command that raises an error changes nothing but ERR, BUSY and DONE, and VALIDATE clears
VALID. -/
def Obligations.ErrorsArePrecise : Prop :=
  ∀ s t : State, engineStep s = .next t → t.err ≠ .noError →
    t = { s with err := t.err, busy := false, done := true, valid := t.valid } ∧
    (decode s.cmd = .ok .validate → t.valid = false) ∧
    (decode s.cmd ≠ .ok .validate → t.valid = s.valid)

/-- R237: LENGTH (code 2) is raised exactly under the condition of the command's row, whatever the buffers hold; VALIDATE then
also clears VALID. -/
def Obligations.LengthRaisedExactlyWhen : Prop :=
  ∀ (i : Instr) (s : State), s.cfg.Legal →
    (lengthCondition i s →
      exec i s = .next { s with
        err := .length, busy := false, done := true, valid := if i = .validate then false else s.valid }) ∧
    (∀ t, exec i s = .next t → t.err = .length → lengthCondition i s) ∧ errBits .length = 2#4

/-- R238: UNPAD (code 3) is raised exactly by DEC with U = 1 whose last decrypted byte exceeds PLEN; PBUF and PLEN are then
unchanged. -/
def Obligations.UnpadRaisedExactlyWhen : Prop :=
  ∀ (i : Instr) (s t : State), exec i s = .next t →
    (t.err = .unpad ↔
      i = .dec true ∧ ¬ lengthCondition i s ∧ 0 < s.plen.toNat ∧
        ∃ c, c.length = s.plen.toNat ∧ HoldsBytes s.mem pbufBase c ∧
          s.plen.toNat < (byteAt (cbcD (keyBytes s) (ivBytes s) c) (s.plen.toNat - 1)).toNat) ∧
    (t.err = .unpad → t.mem = s.mem ∧ t.plen = s.plen) ∧ errBits .unpad = 3#4

/-- R236: ILLEGAL (code 1) is raised for an illegal word whatever the registers and buffers hold, and by no legal word; NOP and
KEYRST raise nothing, AUTHKEY nothing but LENGTH. -/
def Obligations.IllegalOnlyForIllegalWords : Prop :=
  (∀ (s : State) (e : Illegal), decode s.cmd = .error e →
    engineStep s = .next { s with err := .illegal, busy := false, done := true }) ∧
  (∀ (i : Instr) (s t : State), exec i s = .next t →
    t.err ≠ .illegal ∧ (i = .nop → t.err = .noError) ∧ (i = .keyrst → t.err = .noError) ∧
      (i = .authkey → t.err = .noError ∨ t.err = .length)) ∧
  errBits .illegal = 1#4

/-- A command whose operand bytes are all specified always answers a next state; one that stops does so only at an unspecified byte
it reads; no command is refused. The ranges are operandRanges, the model's reading: those of R264 and R96, but for PARSE only the
header bytes 0x20..0x35 and the bytes from 0x38 on, which R123 leaves as the ones read (log 13, DEDUCED). That a use of an
unspecified byte stops the machine is the model's choice between the two treatments of U1 (R262, log 5). -/
def Obligations.ReadyCommandsNeverStop : Prop :=
  ∀ (i : Instr) (s : State),
    (CommandReady i s → ∃ t, exec i s = .next t) ∧
    (∀ r, exec i s ≠ .refused r) ∧
    (∀ f, exec i s = .fault f →
      ∃ x, f = .commandReadsUnspecified x ∧ s.mem.read x = none ∧
        ∃ r ∈ operandRanges i s, r.1 ≤ x ∧ x < r.1 + r.2)

/-- R276: completion is certain. From any state with BUSY = 1 and rst released, under any schedule that does not assert rst, a
command whose operands are specified completes after at most one step more than the schedule is long. That an exhausted schedule
leaves the engine to move is the model's (log 7), and which bytes PARSE needs specified is its reading of R123 (log 13). -/
def Obligations.IssuedCommandCompletes : Prop :=
  ∀ s : State, s.busy = true → s.rst = false → (∀ t ∈ s.turns, t ≠ .rst true) → LatchReady s →
    ∃ k, k ≤ s.turns.length + 1 ∧ ∃ t, Sys2Proof.core.run k s = .next t ∧ t.busy = false ∧ t.done = true

/-- R276 and R73: the result of a command does not depend on when the engine moves. Any host accesses made between the issue and
the engine's turn leave all the engine sees as it is, and the completed command leaves the same registers and buffers as with no
access between; only OVERRUN, BUSERR, IE, the read data and the model's own counters may differ. The schedule is the list of turns
the State holds (the model's own, log 7). -/
def Obligations.ScheduleDoesNotChangeResult : Prop :=
  ∀ (s s' : State) (accesses : List Access), s.rst = false → s.busy = true →
    step { s with turns := [.engine] } = .next s' →
    ∃ t, Sys2Proof.core.run (accesses.length + 1) { s with turns := accesses.map .host ++ [.engine] } = .next t ∧
      engineView t = engineView s' ∧ t.done = s'.done

/-! ## The commands, one by one -/

/-- R210: NOP does nothing but complete; from STATUS = 0x20 it leaves STATUS = 0x02. -/
def Obligations.NopOnlyCompletes : Prop :=
  decode 0x00000000#32 = .ok .nop ∧
    (∀ s : State, exec .nop s = .next { s with err := .noError, busy := false, done := true }) ∧
    (∀ s t : State, statusWord s = 0x20#32 → exec .nop (issue 0x00000000#32 s) = .next t → statusWord t = 0x02#32)

/-- R124: CSUMF. -/
def Obligations.CsumfSumsFrame : Prop :=
  decode 0x00000001#32 = .ok .csumf ∧
  ∀ s : State,
    (s.cfg.fbufBytes < s.flen.toNat →
      exec .csumf s = .next { s with err := .length, busy := false, done := true }) ∧
    (∀ f : List Byte, f.length = s.flen.toNat → s.flen.toNat ≤ s.cfg.fbufBytes → HoldsBytes s.mem fbufBase f →
      exec .csumf s = .next { s with
        cksum := BitVec.ofNat 16 (0xBEAF + (f.map BitVec.toNat).sum), err := .noError, busy := false, done := true })

/-- R127: CSUMP. -/
def Obligations.CsumpSumsPayload : Prop :=
  decode 0x00000002#32 = .ok .csump ∧
  ∀ s : State,
    (s.cfg.pbufBytes < s.plen.toNat →
      exec .csump s = .next { s with err := .length, busy := false, done := true }) ∧
    (∀ p : List Byte, p.length = s.plen.toNat → s.plen.toNat ≤ s.cfg.pbufBytes → HoldsBytes s.mem pbufBase p →
      exec .csump s = .next { s with
        cksum := BitVec.ofNat 16 (0xBEAF + (p.map BitVec.toNat).sum), err := .noError, busy := false, done := true })

/-- R184: PAD. With n = PLEN and m the padded length, PB[n..m) becomes zero and PLEN becomes m; every other byte and register
stays. The payload itself is not read, so it need not be specified. -/
def Obligations.PadAppendsZeros : Prop :=
  decode 0x00000003#32 = .ok .pad ∧
  ∀ s : State, s.cfg.Legal →
    (s.cfg.pbufBytes < s.plen.toNat ∨ s.cfg.pbufBytes < s.plen.toNat + (16 - s.plen.toNat % 16) →
      exec .pad s = .next { s with err := .length, busy := false, done := true }) ∧
    (s.plen.toNat + (16 - s.plen.toNat % 16) ≤ s.cfg.pbufBytes →
      ∃ t, exec .pad s = .next t ∧
        { t with mem := s.mem } = { s with
          plen := BitVec.ofNat 16 (s.plen.toNat + (16 - s.plen.toNat % 16))
          err := .noError, busy := false, done := true } ∧
        (∀ x, s.plen.toNat ≤ x → x < s.plen.toNat + (16 - s.plen.toNat % 16) → t.mem.read (pbufBase + x) = some 0#8) ∧
        SameOutside s.mem t.mem (pbufBase + s.plen.toNat) (16 - s.plen.toNat % 16))

/-- R188: ENC. -/
def Obligations.EncEncryptsInPlace : Prop :=
  decode 0x00000004#32 = .ok .enc ∧
  ∀ s : State,
    (s.cfg.pbufBytes < s.plen.toNat ∨ s.plen.toNat % 16 ≠ 0 →
      exec .enc s = .next { s with err := .length, busy := false, done := true }) ∧
    (∀ p : List Byte, p.length = s.plen.toNat → s.plen.toNat ≤ s.cfg.pbufBytes → s.plen.toNat % 16 = 0 →
      HoldsBytes s.mem pbufBase p →
      ∃ t, exec .enc s = .next t ∧
        { t with mem := s.mem } = { s with err := .noError, busy := false, done := true } ∧
        (cbcE (keyBytes s) (ivBytes s) p).length = p.length ∧
        HoldsBytes t.mem pbufBase (cbcE (keyBytes s) (ivBytes s) p) ∧
        SameOutside s.mem t.mem pbufBase p.length)

/-- R192 with R194 and R195: DEC, in its four cases. P is the plaintext, v its last byte. -/
def Obligations.DecDecryptsInPlace : Prop :=
  decode 0x00000005#32 = .ok (.dec false) ∧ decode 0x00000105#32 = .ok (.dec true) ∧
  ∀ (s : State) (u : Bool),
    (s.cfg.pbufBytes < s.plen.toNat ∨ s.plen.toNat % 16 ≠ 0 →
      exec (.dec u) s = .next { s with err := .length, busy := false, done := true }) ∧
    (∀ c p : List Byte, c.length = s.plen.toNat → s.plen.toNat ≤ s.cfg.pbufBytes → s.plen.toNat % 16 = 0 →
      HoldsBytes s.mem pbufBase c → p = cbcD (keyBytes s) (ivBytes s) c →
      p.length = c.length ∧
      (u = false ∨ s.plen.toNat = 0 →
        ∃ t, exec (.dec u) s = .next t ∧
          { t with mem := s.mem } = { s with err := .noError, busy := false, done := true } ∧
          HoldsBytes t.mem pbufBase p ∧ SameOutside s.mem t.mem pbufBase p.length) ∧
      (u = true ∧ 0 < s.plen.toNat ∧ (byteAt p (s.plen.toNat - 1)).toNat ≤ s.plen.toNat →
        ∃ t, exec (.dec u) s = .next t ∧
          { t with mem := s.mem } = { s with
            plen := BitVec.ofNat 16 (s.plen.toNat - (byteAt p (s.plen.toNat - 1)).toNat)
            err := .noError, busy := false, done := true } ∧
          HoldsBytes t.mem pbufBase p ∧ SameOutside s.mem t.mem pbufBase p.length) ∧
      (u = true ∧ 0 < s.plen.toNat ∧ s.plen.toNat < (byteAt p (s.plen.toNat - 1)).toNat →
        exec (.dec u) s = .next { s with err := .unpad, busy := false, done := true }))

/-- R130, R131 and R134 for a payload p of 1 byte or more: the frame F stored is MAGIC, the header fields of R123, and the padded
payload encrypted; the payload checksum is over the padded plaintext, the frame checksum over the whole frame with its own field
zero; PBUF and PLEN stay. -/
def Obligations.BuildWithPayload : Prop :=
  ∀ (s : State) (a : Bool) (p : List Byte), s.cfg.Legal →
    p.length = s.plen.toNat → 0 < p.length → p.length ≤ s.cfg.pbufBytes →
    0x38 + (p.length + (16 - p.length % 16)) ≤ s.cfg.fbufBytes → HoldsBytes s.mem pbufBase p →
    ∃ t f, exec (.build a) s = .next t ∧
      { t with mem := s.mem } = { s with
        flen := BitVec.ofNat 16 (0x38 + (p.length + (16 - p.length % 16)))
        cksum := csum (f.take 0x20 ++ [0, 0] ++ f.drop 0x22)
        pcksum := csum (p ++ List.replicate (16 - p.length % 16) 0)
        seq := if a then s.seq + 1 else s.seq
        err := .noError, busy := false, done := true } ∧
      HoldsBytes t.mem fbufBase f ∧ SameOutside s.mem t.mem fbufBase f.length ∧
      f.length = 0x38 + (p.length + (16 - p.length % 16)) ∧
      slice f 0x00 0x08 = s.cfg.magic.toList ∧ slice f 0x08 0x20 = List.replicate 24 0 ∧
      slice f 0x20 0x22 = bytesLE16 (csum (f.take 0x20 ++ [0, 0] ++ f.drop 0x22)) ∧
      slice f 0x22 0x24 = [0, 0] ∧ slice f 0x24 0x26 = bytesLE16 s.devtype ∧ slice f 0x26 0x28 = bytesLE16 s.tag ∧
      slice f 0x28 0x2a = bytesLE16 (if a then s.seq + 1 else s.seq) ∧ slice f 0x2a 0x30 = macBytes s ∧
      slice f 0x30 0x34 = bytesLE32 s.devid ∧
      slice f 0x34 0x36 = bytesLE16 (csum (p ++ List.replicate (16 - p.length % 16) 0)) ∧
      slice f 0x36 0x38 = [0, 0] ∧
      f.drop 0x38 = cbcE (keyBytes s) (ivBytes s) (p ++ List.replicate (16 - p.length % 16) 0)

/-- R132: BUILD with PLEN = 0 makes a frame of exactly 0x38 bytes, with 00 00 at 0x34 and PCKSUM = 0; it reads no buffer byte. -/
def Obligations.BuildHeaderOnly : Prop :=
  ∀ (s : State) (a : Bool), s.cfg.Legal → s.plen.toNat = 0 →
    ∃ t f, exec (.build a) s = .next t ∧
      { t with mem := s.mem } = { s with
        flen := 0x38#16
        cksum := csum (f.take 0x20 ++ [0, 0] ++ f.drop 0x22)
        pcksum := 0
        seq := if a then s.seq + 1 else s.seq
        err := .noError, busy := false, done := true } ∧
      HoldsBytes t.mem fbufBase f ∧ SameOutside s.mem t.mem fbufBase 0x38 ∧ f.length = 0x38 ∧
      slice f 0x20 0x22 = bytesLE16 (csum (f.take 0x20 ++ [0, 0] ++ f.drop 0x22)) ∧
      f.take 0x20 = s.cfg.magic.toList ++ List.replicate 24 0 ∧
      f.drop 0x22 = [0, 0] ++ bytesLE16 s.devtype ++ bytesLE16 s.tag ++ bytesLE16 (if a then s.seq + 1 else s.seq) ++
        macBytes s ++ bytesLE32 s.devid ++ [0, 0] ++ [0, 0]

/-- R133: with A = 1 BUILD increments SEQ mod 2^16 and the frame carries the new value; with A = 0 SEQ stays and is placed as it
is; a BUILD that raises an error leaves SEQ. 0xFFFF becomes 0x0000 and the frame then carries 00 00. -/
def Obligations.BuildSequenceNumber : Prop :=
  ∀ (s t : State) (a : Bool), s.cfg.Legal → exec (.build a) s = .next t →
    (t.err = .noError →
      t.seq.toNat = (if a then (s.seq.toNat + 1) % 2 ^ 16 else s.seq.toNat) ∧
      t.mem.read (fbufBase + 0x28) = some (t.seq.extractLsb' 0 8) ∧
      t.mem.read (fbufBase + 0x29) = some (t.seq.extractLsb' 8 8)) ∧
    (t.err = .noError → a = true → s.seq = 0xFFFF#16 →
      t.seq = 0x0000#16 ∧ t.mem.read (fbufBase + 0x28) = some 0#8 ∧ t.mem.read (fbufBase + 0x29) = some 0#8) ∧
    (t.err ≠ .noError → t.seq = s.seq)

/-- R135: BUILD writes only FB[0..0x38+m); every byte at or past the new FLEN keeps its contents, and so does PBUF. -/
def Obligations.BuildKeepsOtherBytes : Prop :=
  ∀ (s t : State) (a : Bool), s.cfg.Legal → exec (.build a) s = .next t → t.err = .noError →
    t.flen.toNat ≤ s.cfg.fbufBytes ∧
    (∀ x, t.flen.toNat ≤ x → t.mem.read (fbufBase + x) = s.mem.read (fbufBase + x)) ∧
    (∀ x, t.mem.read (pbufBase + x) = s.mem.read (pbufBase + x))

/-- R140: VALIDATE. -/
def Obligations.ValidateChecksFrame : Prop :=
  decode 0x00000007#32 = .ok .validate ∧
  ∀ s : State,
    (s.flen.toNat < 0x38 ∨ s.cfg.fbufBytes < s.flen.toNat →
      exec .validate s = .next { s with valid := false, err := .length, busy := false, done := true }) ∧
    (∀ f : List Byte, f.length = s.flen.toNat → 0x38 ≤ s.flen.toNat → s.flen.toNat ≤ s.cfg.fbufBytes →
      HoldsBytes s.mem fbufBase f →
      exec .validate s = .next { s with
        valid := decide ((csum (f.take 0x20 ++ [0, 0] ++ f.drop 0x22)).toNat =
          (byteAt f 0x20).toNat + 256 * (byteAt f 0x21).toNat)
        cksum := csum (f.take 0x20 ++ [0, 0] ++ f.drop 0x22)
        err := .noError, busy := false, done := true })

/-- R141: VALIDATE leaves every byte of both buffers as it was, whatever the outcome. -/
def Obligations.ValidateKeepsBuffers : Prop :=
  ∀ s t : State, exec .validate s = .next t → t.mem = s.mem ∧ ∀ x, t.mem.read x = s.mem.read x

/-- R146: PARSE. Only the header bytes 0x20..0x35 and the payload bytes need be specified (log 13). -/
def Obligations.ParseReadsHeader : Prop :=
  decode 0x00000008#32 = .ok .parse ∧
  ∀ s : State, s.cfg.Legal →
    (s.flen.toNat < 0x38 ∨ s.cfg.fbufBytes < s.flen.toNat ∨ s.cfg.pbufBytes < s.flen.toNat - 0x38 →
      exec .parse s = .next { s with err := .length, busy := false, done := true }) ∧
    (∀ f : List Byte, f.length = s.flen.toNat → 0x38 ≤ s.flen.toNat → s.flen.toNat ≤ s.cfg.fbufBytes →
      s.flen.toNat - 0x38 ≤ s.cfg.pbufBytes →
      (∀ k, k < f.length → (0x20 ≤ k ∧ k < 0x36) ∨ 0x38 ≤ k → s.mem.read (fbufBase + k) = some (byteAt f k)) →
      ∃ t, exec .parse s = .next t ∧
        { t with mem := s.mem } = { s with
          rxFcksum := le16 (slice f 0x20 0x22)
          rxErrcode := le16 (slice f 0x22 0x24)
          rxDevtype := le16 (slice f 0x24 0x26)
          rxTag := le16 (slice f 0x26 0x28)
          rxSeq := le16 (slice f 0x28 0x2a)
          rxMacLo := le32 (slice f 0x2a 0x2e)
          rxMacHi := le16 (slice f 0x2e 0x30)
          rxDevid := le32 (slice f 0x30 0x34)
          rxPcksum := le16 (slice f 0x34 0x36)
          plen := BitVec.ofNat 16 (s.flen.toNat - 0x38)
          err := .noError, busy := false, done := true } ∧
        HoldsBytes t.mem pbufBase (f.drop 0x38) ∧ SameOutside s.mem t.mem pbufBase (s.flen.toNat - 0x38))

/-- R213: AUTHKEY. Byte 4 + 4n + j of the payload is byte j of KEYn. -/
def Obligations.AuthkeyTakesKey : Prop :=
  decode 0x00000009#32 = .ok .authkey ∧
  ∀ s : State,
    (s.plen.toNat < 20 ∨ s.cfg.pbufBytes < s.plen.toNat →
      exec .authkey s = .next { s with err := .length, busy := false, done := true }) ∧
    (∀ p : List Byte, p.length = 20 → 20 ≤ s.plen.toNat → s.plen.toNat ≤ s.cfg.pbufBytes →
      HoldsBytes s.mem pbufBase p →
      exec .authkey s = .next { s with
        devid := le32 (slice p 0 4)
        key0 := le32 (slice p 4 8)
        key1 := le32 (slice p 8 12)
        key2 := le32 (slice p 12 16)
        key3 := le32 (slice p 16 20)
        err := .noError, busy := false, done := true })

/-- R216: KEYRST puts the default key and a zero identifier, and touches nothing else; with the suggested DEFAULT_KEY, KEY0 is
0x34287609. -/
def Obligations.KeyrstRestoresDefault : Prop :=
  decode 0x0000000A#32 = .ok .keyrst ∧
  ∀ s : State,
    (∃ t, exec .keyrst s = .next t ∧
      t = { s with
        devid := 0, key0 := t.key0, key1 := t.key1, key2 := t.key2, key3 := t.key3
        err := .noError, busy := false, done := true } ∧
      keyBytes t = s.cfg.defaultKey.toList ∧
      (s.cfg.defaultKey = Config.suggested.defaultKey → t.key0 = 0x34287609#32))

/-- R214: the four identifier bytes an AUTHKEY takes reappear, unchanged and in the same order, at frame bytes 0x30..0x33 of the
frame a BUILD then makes. -/
def Obligations.AuthkeyBytesReappear : Prop :=
  ∀ (s t u : State) (a : Bool), s.cfg.Legal → exec .authkey s = .next t → t.err = .noError →
    exec (.build a) t = .next u → u.err = .noError →
    ∀ k, k < 4 → u.mem.read (fbufBase + 0x30 + k) = s.mem.read (pbufBase + k) ∧ (s.mem.read (pbufBase + k)).isSome

/-- R215 and R41: after AUTHKEY the key the cipher commands read is PB[4..20), and the IV is the same; ENC then encrypts under
that key. -/
def Obligations.NewKeyInUse : Prop :=
  ∀ (s t : State) (p : List Byte), exec .authkey s = .next t → t.err = .noError → p.length = 20 →
    HoldsBytes s.mem pbufBase p →
    keyBytes t = p.drop 4 ∧ ivBytes t = ivBytes s ∧
    (∀ (n : Half) (q : List Byte), q.length = n.toNat → n.toNat ≤ s.cfg.pbufBytes → n.toNat % 16 = 0 →
      HoldsBytes t.mem pbufBase q →
      ∃ u, exec .enc { t with plen := n } = .next u ∧
        HoldsBytes u.mem pbufBase (cbcE (p.drop 4) s.cfg.defaultIv.toList q))

/-! ## Checksum, padding and cipher (40_checksum_frame, 41_cipher) -/

/-- R120: the checksum is the seeded sum of the bytes mod 2^16. -/
def Obligations.ChecksumIsSeededSum : Prop :=
  ∀ bs : List Byte, (csum bs).toNat = (0xBEAF + (bs.map BitVec.toNat).sum) % 2 ^ 16

/-- R121: the laws (a) to (e) of the checksum. -/
def Obligations.ChecksumLaws : Prop :=
  csum [] = 0xBEAF#16 ∧
  (∀ s t : List Byte, csum (s ++ t) = csum s + (csum t - 0xBEAF#16)) ∧
  (∀ s t : List Byte, s.Perm t → csum s = csum t) ∧
  (∀ (s : List Byte) (n : Nat), csum (s ++ List.replicate n 0) = csum s) ∧
  (∀ (s t : List Byte) (b b' : Byte) (d : Nat), b'.toNat = b.toNat + d →
    csum (s ++ [b'] ++ t) = csum (s ++ [b] ++ t) + BitVec.ofNat 16 d) ∧
  (∀ (s t : List Byte) (b b' : Byte), b ≠ b' → csum (s ++ [b'] ++ t) ≠ csum (s ++ [b] ++ t))

/-- R122: the checksum with the field zeroed, in both its forms; it does not depend on the field. -/
def Obligations.ZeroedChecksumArithmetic : Prop :=
  ∀ f : List Byte, 0x22 ≤ f.length →
    csumZ f = csum (slice f 0 0x20 ++ zeros 2 ++ slice f 0x22 f.length) ∧
    csumZ f = csum f - (byteAt f 0x20).setWidth 16 - (byteAt f 0x21).setWidth 16

/-- R181 and R182: the padding and its laws. -/
def Obligations.PaddingLaws : Prop :=
  ∀ s : List Byte,
    pad s = s ++ List.replicate (16 - s.length % 16) 0 ∧
    (pad s).length = s.length + 16 - s.length % 16 ∧ (pad s).length % 16 = 0 ∧ s.length < (pad s).length ∧
    (pad s).getLast? = some 0 ∧ (pad s).take s.length = s

/-- R171's last sentence: the block decryption inverts the block encryption, for every key and block. The cipher is the spec's
transcription, which it marks as general knowledge (log 12). -/
def Obligations.BlockDecryptInvertsEncrypt : Prop :=
  ∀ key b : List Byte, key.length = 16 → b.length = 16 →
    aesD key (aesE key b) = b ∧ (aesE key b).length = 16

/-- R178 and R179: CBC keeps the length, is empty on the empty sequence, and decryption inverts encryption, block by block (over
the block cipher of log 12). -/
def Obligations.CbcDecryptInvertsEncrypt : Prop :=
  ∀ key iv p : List Byte, key.length = 16 → iv.length = 16 → p.length % 16 = 0 →
    (cbcE key iv p).length = p.length ∧ cbcE key iv [] = [] ∧ cbcD key iv (cbcE key iv p) = p ∧
    (∀ b : List Byte, b.length = 16 →
      cbcE key iv (b ++ p) = aesE key (xorBytes b iv) ++ cbcE key (aesE key (xorBytes b iv)) p ∧
      cbcD key iv (b ++ p) = xorBytes (aesD key b) iv ++ cbcD key b p)

/-- R163 and R164: the S-box is the affine map of the inverse in GF(2^8), with 0 for 0, and the inverse table inverts it. -/
def Obligations.SboxIsAffineOfInverse : Prop :=
  (∀ x : Byte, x ≠ 0 → ∃ y, gmul x y = 1) ∧ (∀ x y : Byte, gmul x y = 1 → sbox x = sboxAffine y) ∧
    sbox 0 = sboxAffine 0 ∧ ∀ x : Byte, invSbox (sbox x) = x

/-- The published vectors V-A1 and V-A3 and the products of R162 (95_test_vectors 2.4, 41_cipher R162, R169, R170). -/
def Obligations.CipherKnownAnswers : Prop :=
  aesE [0x00, 0x01, 0x02, 0x03, 0x04, 0x05, 0x06, 0x07, 0x08, 0x09, 0x0a, 0x0b, 0x0c, 0x0d, 0x0e, 0x0f]
      [0x00, 0x11, 0x22, 0x33, 0x44, 0x55, 0x66, 0x77, 0x88, 0x99, 0xaa, 0xbb, 0xcc, 0xdd, 0xee, 0xff] =
    [0x69, 0xc4, 0xe0, 0xd8, 0x6a, 0x7b, 0x04, 0x30, 0xd8, 0xcd, 0xb7, 0x80, 0x70, 0xb4, 0xc5, 0x5a] ∧
  wordAt (keyExpansion [0x2b, 0x7e, 0x15, 0x16, 0x28, 0xae, 0xd2, 0xa6, 0xab, 0xf7, 0x15, 0x88, 0x09, 0xcf, 0x4f, 0x3c])
    43 = ⟨0xb6, 0x63, 0x0c, 0xa6⟩ ∧
  gmul 0x57 0x83 = 0xC1 ∧ gmul 0x57 0x13 = 0xFE

/-! ## Round trips of the machine -/

/-- R197: PAD, then ENC, then DEC with either U leaves PB[0..PLEN) = pad(P), for any key. -/
def Obligations.PadEncDecRoundTrip : Prop :=
  ∀ (s : State) (p : List Byte) (u : Bool), s.cfg.Legal → p.length = s.plen.toNat →
    (pad p).length ≤ s.cfg.pbufBytes → HoldsBytes s.mem pbufBase p →
    ∃ s1 s2 s3, exec .pad s = .next s1 ∧ exec .enc s1 = .next s2 ∧ exec (.dec u) s2 = .next s3 ∧
      s3.err = .noError ∧ s3.plen.toNat = (pad p).length ∧ HoldsBytes s3.mem pbufBase (pad p)

/-- R136: after a BUILD without error, a VALIDATE with FBUF, FLEN and the parameters as BUILD left them sets VALID and finds the
same CKSUM. -/
def Obligations.BuiltFrameValidates : Prop :=
  ∀ (s t u : State) (a : Bool), s.cfg.Legal → exec (.build a) s = .next t → t.err = .noError →
    u.cfg = t.cfg → u.flen = t.flen → (∀ k, k < t.cfg.fbufBytes → u.mem.read (fbufBase + k) = t.mem.read (fbufBase + k)) →
    ∃ v, exec .validate u = .next v ∧ v.err = .noError ∧ v.valid = true ∧ v.cksum = t.cksum

/-- R142: if a frame validates, the frame with exactly one byte other than 0x20 and 0x21 changed does not. -/
def Obligations.CorruptedFrameIsRejected : Prop :=
  ∀ (s t : State) (k : Nat) (b : Byte), exec .validate s = .next t → t.err = .noError → t.valid = true →
    k < s.flen.toNat → k ≠ 0x20 → k ≠ 0x21 → s.mem.read (fbufBase + k) ≠ some b →
    ∃ u, exec .validate { s with mem := s.mem.write (fbufBase + k) b } = .next u ∧ u.err = .noError ∧ u.valid = false

/-- The receive path of R150 on a frame the block built (R130, R146, R192, R127): PARSE finds the transmit registers in the RX
registers, DEC under the same key recovers the padded payload, and CSUMP then equals RX_PCKSUM. -/
def Obligations.ReceivedPayloadRecovered : Prop :=
  ∀ (s t : State) (a : Bool) (p : List Byte), s.cfg.Legal → p.length = s.plen.toNat → 0 < p.length →
    HoldsBytes s.mem pbufBase p → (pad p).length ≤ s.cfg.pbufBytes →
    exec (.build a) s = .next t → t.err = .noError →
    ∃ t1 t2 t3, exec .parse t = .next t1 ∧ exec (.dec false) t1 = .next t2 ∧ exec .csump t2 = .next t3 ∧
      t1.rxDevtype = s.devtype ∧ t1.rxTag = s.tag ∧ t1.rxSeq = t.seq ∧ t1.rxMacLo = s.macLo ∧ t1.rxMacHi = s.macHi ∧
      t1.rxDevid = s.devid ∧ t1.rxErrcode = 0 ∧ t1.rxFcksum = t.cksum ∧ t1.rxPcksum = t.pcksum ∧
      t2.plen.toNat = (pad p).length ∧ HoldsBytes t2.mem pbufBase (pad p) ∧ t3.cksum = t1.rxPcksum

/-! ## The host bus (20_memory, 70_reset) -/

/-- R64: an aligned access to a buffer while BUSY = 0 moves exactly its n bytes, little-endian, and changes nothing else; it never
crosses the end of the buffer. -/
def Obligations.BufferAccessMovesBytes : Prop :=
  ∀ (s : State) (a : BusAddr) (n : Size), s.cfg.Legal → s.busy = false → a.toNat % n.bytes = 0 →
    (inFbuf s.cfg a.toNat = true ∨ inPbuf s.cfg a.toNat = true) →
    (inFbuf s.cfg a.toNat = true → ∀ k, k < n.bytes → inFbuf s.cfg (a.toNat + k) = true) ∧
    (inPbuf s.cfg a.toNat = true → ∀ k, k < n.bytes → inPbuf s.cfg (a.toNat + k) = true) ∧
    (∀ d : Word, ∃ t, hostAccess (.write a n d) s = .next t ∧ { t with mem := s.mem } = s ∧
      (∀ k, k < n.bytes → t.mem.read (a.toNat + k) = some (d.extractLsb' (8 * k) 8)) ∧
      SameOutside s.mem t.mem a.toNat n.bytes) ∧
    (∀ bs : List Byte, bs.length = n.bytes → HoldsBytes s.mem a.toNat bs →
      hostAccess (.read a n) s = .next { s with
        rdata := BitVec.ofNat 32 (bs.foldr (fun b v => b.toNat + 256 * v) 0) })

/-- R66 and R67: a misaligned, wrong-size or unmapped access sets BUSERR, whatever BUSY is; a read returns 0, a write changes
nothing else. -/
def Obligations.UntakenAccessSetsBuserr : Prop :=
  ∀ (s : State) (a : BusAddr) (n : Size),
    (a.toNat % n.bytes ≠ 0 ∨ (a.toNat < 0x100 ∧ n ≠ .word) ∨
      (0x100 ≤ a.toNat ∧ ¬ (0x1000 ≤ a.toNat ∧ a.toNat < 0x1000 + s.cfg.fbufBytes) ∧
        ¬ (0x2000 ≤ a.toNat ∧ a.toNat < 0x2000 + s.cfg.pbufBytes))) →
    hostAccess (.read a n) s = .next { s with buserr := true, rdata := 0 } ∧
    ∀ d, hostAccess (.write a n d) s = .next { s with buserr := true }

/-- R23, R65 and R22: what a size-4 read of each register returns while BUSY = 0, and 0 for a reserved offset. -/
def Obligations.RegisterReadsFollowTheMap : Prop :=
  ∀ s : State, s.busy = false →
    (∀ p ∈ [(0x000#14, s.cmd), (0x00C#14, s.flen.setWidth 32), (0x010#14, s.plen.setWidth 32),
        (0x014#14, s.devtype.setWidth 32), (0x018#14, s.tag.setWidth 32), (0x01C#14, s.seq.setWidth 32),
        (0x020#14, s.macLo), (0x024#14, s.macHi.setWidth 32), (0x028#14, s.devid), (0x02C#14, s.cksum.setWidth 32),
        (0x030#14, s.pcksum.setWidth 32), (0x034#14, BitVec.ofNat 32 (s.cfg.fbufBytes + 65536 * s.cfg.pbufBytes)),
        (0x050#14, le32 (slice (ivBytes s) 0 4)), (0x054#14, le32 (slice (ivBytes s) 4 8)),
        (0x058#14, le32 (slice (ivBytes s) 8 12)), (0x05C#14, le32 (slice (ivBytes s) 12 16)), (0x040#14, s.key0), (0x044#14, s.key1), (0x048#14, s.key2), (0x04C#14, s.key3),
        (0x060#14, s.rxDevtype.setWidth 32), (0x064#14, s.rxTag.setWidth 32), (0x068#14, s.rxSeq.setWidth 32),
        (0x06C#14, s.rxMacLo), (0x070#14, s.rxMacHi.setWidth 32), (0x074#14, s.rxDevid),
        (0x078#14, s.rxErrcode.setWidth 32), (0x07C#14, s.rxPcksum.setWidth 32), (0x080#14, s.rxFcksum.setWidth 32)],
      hostAccess (.read p.1 .word) s = .next { s with rdata := p.2 }) ∧
    (∃ v : Word, hostAccess (.read 0x004#14 .word) s = .next { s with rdata := v } ∧
      v.getLsbD 0 = s.busy ∧ v.getLsbD 1 = s.done ∧ v.getLsbD 2 = s.valid ∧ v.getLsbD 3 = false ∧
      v.extractLsb' 4 4 = errBits s.err ∧ v.getLsbD 8 = s.overrun ∧ v.getLsbD 9 = s.buserr ∧
      v.extractLsb' 10 22 = 0) ∧
    (∃ v : Word, hostAccess (.read 0x008#14 .word) s = .next { s with rdata := v } ∧
      v.getLsbD 0 = s.ie ∧ v.extractLsb' 1 31 = 0) ∧
    (∀ a : BusAddr, a.toNat % 4 = 0 → (a = 0x038#14 ∨ a = 0x03C#14 ∨ (0x084 ≤ a.toNat ∧ a.toNat ≤ 0x0FC)) →
      hostAccess (.read a .word) s = .next { s with rdata := 0 })

/-- R65, R25, R32 and R22: what a size-4 write to each register does while BUSY = 0 (CMD is IssueLatchesWord); read-only registers
and reserved offsets ignore it. -/
def Obligations.RegisterWritesFollowTheMap : Prop :=
  ∀ (s : State) (d : Word), s.busy = false →
    hostAccess (.write 0x004#14 .word d) s = .next { s with
      done := s.done && !d.getLsbD 1, overrun := s.overrun && !d.getLsbD 8, buserr := s.buserr && !d.getLsbD 9 } ∧
    hostAccess (.write 0x008#14 .word d) s = .next { s with ie := d.getLsbD 0 } ∧
    hostAccess (.write 0x00C#14 .word d) s = .next { s with flen := d.setWidth 16 } ∧
    hostAccess (.write 0x010#14 .word d) s = .next { s with plen := d.setWidth 16 } ∧
    hostAccess (.write 0x014#14 .word d) s = .next { s with devtype := d.setWidth 16 } ∧
    hostAccess (.write 0x018#14 .word d) s = .next { s with tag := d.setWidth 16 } ∧
    hostAccess (.write 0x01C#14 .word d) s = .next { s with seq := d.setWidth 16 } ∧
    hostAccess (.write 0x020#14 .word d) s = .next { s with macLo := d } ∧
    hostAccess (.write 0x024#14 .word d) s = .next { s with macHi := d.setWidth 16 } ∧
    hostAccess (.write 0x028#14 .word d) s = .next { s with devid := d } ∧
    hostAccess (.write 0x040#14 .word d) s = .next { s with key0 := d } ∧
    hostAccess (.write 0x044#14 .word d) s = .next { s with key1 := d } ∧
    hostAccess (.write 0x048#14 .word d) s = .next { s with key2 := d } ∧
    hostAccess (.write 0x04C#14 .word d) s = .next { s with key3 := d } ∧
    (∀ a : BusAddr, a.toNat < 0x100 → a.toNat % 4 = 0 →
      a.toNat ∉ [0x000, 0x004, 0x008, 0x00C, 0x010, 0x014, 0x018, 0x01C, 0x020, 0x024, 0x028, 0x040, 0x044, 0x048, 0x04C] →
      hostAccess (.write a .word d) s = .next s)

/-- R280: while BUSY = 1 a write that passes the checks of R66 and R67 is dropped and sets OVERRUN, but for STATUS and CTRL, which
take it; one that fails them sets BUSERR. -/
def Obligations.WritesWhileBusyAreDropped : Prop :=
  ∀ (s : State) (a : BusAddr) (n : Size) (d : Word), s.busy = true →
    (a.toNat % n.bytes = 0 →
      ((a.toNat < 0x100 ∧ n = .word) ∨ inFbuf s.cfg a.toNat = true ∨ inPbuf s.cfg a.toNat = true) →
      (a = 0x004#14 → n = .word →
        hostAccess (.write a n d) s = .next { s with
          done := s.done && !d.getLsbD 1, overrun := s.overrun && !d.getLsbD 8, buserr := s.buserr && !d.getLsbD 9 }) ∧
      (a = 0x008#14 → n = .word → hostAccess (.write a n d) s = .next { s with ie := d.getLsbD 0 }) ∧
      (a ≠ 0x004#14 → a ≠ 0x008#14 → hostAccess (.write a n d) s = .next { s with overrun := true })) ∧
    ((a.toNat % n.bytes ≠ 0 ∨ (a.toNat < 0x100 ∧ n ≠ .word) ∨
        (0x100 ≤ a.toNat ∧ inFbuf s.cfg a.toNat = false ∧ inPbuf s.cfg a.toNat = false)) →
      hostAccess (.write a n d) s = .next { s with buserr := true })

/-- R281, R25, R26, R32, R41 and R43: while BUSY = 1 a read of CMD, CAPS or IV0..IV3 returns the exact value, one of STATUS the word
whose bit 0 is 1 and whose other fields stand in their places, one of CTRL the word with IE; a read of any other register or of a
buffer returns some value. No such read changes anything else. That the count of free values drawn goes up by one is the model's own
(log 8). -/
def Obligations.ReadsWhileBusy : Prop :=
  ∀ s : State, s.busy = true →
    (∀ p ∈ [(0x000#14, s.cmd), (0x034#14, BitVec.ofNat 32 (s.cfg.fbufBytes + 65536 * s.cfg.pbufBytes)),
        (0x050#14, le32 (slice (ivBytes s) 0 4)), (0x054#14, le32 (slice (ivBytes s) 4 8)),
        (0x058#14, le32 (slice (ivBytes s) 8 12)), (0x05C#14, le32 (slice (ivBytes s) 12 16))],
      hostAccess (.read p.1 .word) s = .next { s with rdata := p.2 }) ∧
    (∃ v : Word, hostAccess (.read 0x004#14 .word) s = .next { s with rdata := v } ∧
      v.getLsbD 0 = true ∧ v.getLsbD 1 = s.done ∧ v.getLsbD 2 = s.valid ∧ v.getLsbD 3 = false ∧
      v.extractLsb' 4 4 = errBits s.err ∧ v.getLsbD 8 = s.overrun ∧ v.getLsbD 9 = s.buserr ∧
      v.extractLsb' 10 22 = 0) ∧
    (∃ v : Word, hostAccess (.read 0x008#14 .word) s = .next { s with rdata := v } ∧
      v.getLsbD 0 = s.ie ∧ v.extractLsb' 1 31 = 0) ∧
    (∀ r, r ∉ [Reg.cmd, .status, .ctrl, .caps, .iv0, .iv1, .iv2, .iv3] →
      ∃ v, hostAccess (.read (BitVec.ofNat 14 (regOffset r)) .word) s =
        .next { s with rdata := v, freeCount := s.freeCount + 1 }) ∧
    (∀ (a : BusAddr) (n : Size), a.toNat % n.bytes = 0 → (inFbuf s.cfg a.toNat = true ∨ inPbuf s.cfg a.toNat = true) →
      ∃ v, hostAccess (.read a n) s = .next { s with rdata := v, freeCount := s.freeCount + 1 })

/-- R69: no read has a side effect but BUSERR, and a read that sets no BUSERR and draws no free value is idempotent: done again it
returns the same data and state. -/
def Obligations.ReadsHaveNoSideEffect : Prop :=
  ∀ (s t : State) (a : BusAddr) (n : Size), hostAccess (.read a n) s = .next t →
    t = { s with rdata := t.rdata, freeCount := t.freeCount, buserr := t.buserr } ∧
    (s.buserr = true → t.buserr = true) ∧
    (s.busy = false → t.freeCount = s.freeCount ∧ hostAccess (.read a n) t = .next t)

/-! ## Who writes what (10_state) -/

/-- R28: only the engine's step on VALIDATE, and reset, change VALID; a VALIDATE that raises LENGTH writes 0; the reset value is 0. -/
def Obligations.OnlyValidateWritesValid : Prop :=
  (∀ s t : State, step s = .next t → t.valid ≠ s.valid →
    (s.rst = true ∨ ∃ rest, s.turns = .rst true :: rest) ∨
    ((s.turns = [] ∨ ∃ rest, s.turns = .engine :: rest) ∧ s.busy = true ∧ decode s.cmd = .ok .validate)) ∧
  (∀ s t : State, exec .validate s = .next t → t.err = .length → t.valid = false) ∧ State.reset.valid = false

/-- R40: the session key changes only by reset, by the engine's step on KEYRST or AUTHKEY, or by a host write to KEY0..KEY3 while
BUSY = 0. -/
def Obligations.KeyWriters : Prop :=
  ∀ s t : State, step s = .next t → keyBytes t ≠ keyBytes s →
    (s.rst = true ∨ ∃ rest, s.turns = .rst true :: rest) ∨
    ((s.turns = [] ∨ ∃ rest, s.turns = .engine :: rest) ∧ s.busy = true ∧
      (decode s.cmd = .ok .authkey ∨ decode s.cmd = .ok .keyrst)) ∨
    (s.busy = false ∧ ∃ a d rest, s.turns = .host (.write a .word d) :: rest ∧
      (a = 0x040#14 ∨ a = 0x044#14 ∨ a = 0x048#14 ∨ a = 0x04C#14))

/-- The "written" columns of R96 for every command: nothing changes but the registers named there and STATUS, and no buffer byte
changes outside the range named there. -/
def Obligations.CommandsWriteOnlyTheirOperands : Prop :=
  ∀ (i : Instr) (s t : State), s.cfg.Legal → exec i s = .next t →
    t = { s with
      err := t.err, busy := t.busy, done := t.done, valid := t.valid, flen := t.flen, plen := t.plen, seq := t.seq
      devid := t.devid, cksum := t.cksum, pcksum := t.pcksum, key0 := t.key0, key1 := t.key1, key2 := t.key2
      key3 := t.key3, rxDevtype := t.rxDevtype, rxTag := t.rxTag, rxSeq := t.rxSeq, rxMacLo := t.rxMacLo
      rxMacHi := t.rxMacHi, rxDevid := t.rxDevid, rxErrcode := t.rxErrcode, rxPcksum := t.rxPcksum
      rxFcksum := t.rxFcksum, mem := t.mem } ∧
    (i ≠ .validate → t.valid = s.valid) ∧
    ((∀ a, i ≠ .build a) → t.flen = s.flen ∧ t.pcksum = s.pcksum) ∧
    (i ≠ .pad → i ≠ .dec true → i ≠ .parse → t.plen = s.plen) ∧
    (i ≠ .build true → t.seq = s.seq) ∧
    (i ≠ .authkey → i ≠ .keyrst → t.devid = s.devid ∧ keyBytes t = keyBytes s) ∧
    (i ≠ .csumf → i ≠ .csump → i ≠ .validate → (∀ a, i ≠ .build a) → t.cksum = s.cksum) ∧
    (i ≠ .parse → t.rxDevtype = s.rxDevtype ∧ t.rxTag = s.rxTag ∧ t.rxSeq = s.rxSeq ∧ t.rxMacLo = s.rxMacLo ∧
      t.rxMacHi = s.rxMacHi ∧ t.rxDevid = s.rxDevid ∧ t.rxErrcode = s.rxErrcode ∧ t.rxPcksum = s.rxPcksum ∧
      t.rxFcksum = s.rxFcksum) ∧
    (∀ x, t.mem.read x ≠ s.mem.read x →
      (i = .pad ∧ pbufBase + s.plen.toNat ≤ x ∧ x < pbufBase + t.plen.toNat) ∨
      ((i = .enc ∨ i = .dec true ∨ i = .dec false) ∧ pbufBase ≤ x ∧ x < pbufBase + s.plen.toNat) ∨
      ((∃ a, i = .build a) ∧ fbufBase ≤ x ∧ x < fbufBase + t.flen.toNat) ∨
      (i = .parse ∧ pbufBase ≤ x ∧ x < pbufBase + (s.flen.toNat - 0x38)))

/-- R41 and R43: no step changes IV0..IV3 or CAPS: they read DEFAULT_IV's words and the buffer sizes at all times. That no step
changes the parameters of R8 is how the model holds them (State.cfg, log 1). -/
def Obligations.ConstantRegistersStay : Prop :=
  ∀ s t : State, step s = .next t →
    t.cfg = s.cfg ∧ ivBytes t = s.cfg.defaultIv.toList ∧
    (∀ r ∈ [Reg.iv0, .iv1, .iv2, .iv3, .caps], readReg t r = readReg s r) ∧
    bytesLE32 (readReg t .iv0) ++ bytesLE32 (readReg t .iv1) ++ bytesLE32 (readReg t .iv2) ++ bytesLE32 (readReg t .iv3) =
      s.cfg.defaultIv.toList ∧
    (s.cfg.Legal → (readReg t .caps).extractLsb' 0 16 = BitVec.ofNat 16 s.cfg.fbufBytes ∧
      (readReg t .caps).extractLsb' 16 16 = BitVec.ofNat 16 s.cfg.pbufBytes)

/-- R30 and R31: OVERRUN and BUSERR are sticky (only a host write of 1 to their bit of STATUS, and reset, clear them), and only a
dropped write, and an access the map does not take, set them. -/
def Obligations.StickyFlagsWriters : Prop :=
  ∀ s t : State, step s = .next t →
    (t.overrun ≠ s.overrun →
      (s.rst = true ∨ ∃ rest, s.turns = .rst true :: rest) ∨
      (t.overrun = false ∧ ∃ d rest, s.turns = .host (.write 0x004#14 .word d) :: rest ∧ d.getLsbD 8 = true) ∨
      (t.overrun = true ∧ s.busy = true ∧ ∃ a n d rest, s.turns = .host (.write a n d) :: rest ∧
        a ≠ 0x004#14 ∧ a ≠ 0x008#14 ∧ a.toNat % n.bytes = 0 ∧
        ((a.toNat < 0x100 ∧ n = .word) ∨ inFbuf s.cfg a.toNat = true ∨ inPbuf s.cfg a.toNat = true))) ∧
    (t.buserr ≠ s.buserr →
      (s.rst = true ∨ ∃ rest, s.turns = .rst true :: rest) ∨
      (t.buserr = false ∧ ∃ d rest, s.turns = .host (.write 0x004#14 .word d) :: rest ∧ d.getLsbD 9 = true) ∨
      (t.buserr = true ∧ ∃ a n rest, (s.turns = .host (.read a n) :: rest ∨ ∃ d, s.turns = .host (.write a n d) :: rest) ∧
        (a.toNat % n.bytes ≠ 0 ∨ (a.toNat < 0x100 ∧ n ≠ .word) ∨
          (0x100 ≤ a.toNat ∧ inFbuf s.cfg a.toNat = false ∧ inPbuf s.cfg a.toNat = false))))

/-! ## The invariant, reset and the interrupt -/

/-- Every step keeps the invariant, from every state that has it (R8, R27, R63, R70, R230, R260). -/
def Obligations.StepKeepsInvariant : Prop := ∀ s t : State, Inv s → step s = .next t → Inv t

/-- The state after reset has the invariant. -/
def Obligations.ResetHasInvariant : Prop := Inv State.reset

/-- R260 and R262: while rst is asserted and when it is released every register takes its reset value, a command in flight is
abandoned, irq is low, and reset takes precedence over any host access and over the engine; the buffers stay if BUSY = 0 and are
unspecified if BUSY = 1. -/
def Obligations.ResetInputTakesPrecedence : Prop :=
  ∀ s : State,
    (s.rst = true ∨ ∃ rest, s.turns = .rst true :: rest) →
    ∃ t, step s = .next t ∧
      t = { State.powerUp s.cfg with
        mem := t.mem, rst := t.rst, rdata := t.rdata, turns := s.turns.tail, freeCount := t.freeCount } ∧
      (∀ x, t.mem.read x = if s.busy then none else s.mem.read x) ∧ t.busy = false ∧ irq t = false ∧
      (∀ l rest, s.turns = .rst l :: rest → t.rst = l) ∧ ((∀ l rest, s.turns ≠ .rst l :: rest) → t.rst = s.rst)

/-- R261 and R23: every register of a block with any parameters reads its reset value right after reset, and every buffer byte is
unspecified after power-up (R262); with the suggested parameters KEY0, IV0 and CAPS read the words R261 gives. -/
def Obligations.RegistersAfterReset : Prop :=
  (∀ c : Config,
    (∀ r ∈ [Reg.cmd, .status, .ctrl, .flen, .plen, .devtype, .tag, .macLo, .macHi, .devid, .cksum, .pcksum,
        .rxDevtype, .rxTag, .rxSeq, .rxMacLo, .rxMacHi, .rxDevid, .rxErrcode, .rxPcksum, .rxFcksum],
      readReg (State.powerUp c) r = 0) ∧
    readReg (State.powerUp c) .seq = c.seqInit.setWidth 32 ∧
    readReg (State.powerUp c) .caps = BitVec.ofNat 32 (c.fbufBytes + 65536 * c.pbufBytes) ∧
    keyBytes (State.powerUp c) = c.defaultKey.toList ∧ ivBytes (State.powerUp c) = c.defaultIv.toList ∧
    (∀ x, (State.powerUp c).mem.read x = none)) ∧
  State.reset = State.powerUp Config.suggested ∧
  (readReg State.reset .caps = 0x08000800#32 ∧ readReg State.reset .key0 = 0x34287609#32 ∧
    readReg State.reset .key1 = 0x239EE93F#32 ∧ readReg State.reset .key2 = 0x13155C76#32 ∧
    readReg State.reset .key3 = 0x028BCFAC#32 ∧ readReg State.reset .iv0 = 0x99172E56#32 ∧
    readReg State.reset .iv1 = 0x283D096D#32 ∧ readReg State.reset .iv2 = 0x69BAB3DD#32 ∧
    readReg State.reset .iv3 = 0x586F2E5A#32)

/-- R240: irq is IE and DONE, so it rises at every completion when IE = 1, errors included, falls at an acknowledgement and at the
next issue, rises at once when IE is set while DONE = 1, and no OVERRUN or BUSERR drives it. -/
def Obligations.InterruptFollowsDone : Prop :=
  (∀ s : State, irq s = (s.ie && s.done)) ∧
  (∀ (i : Instr) (s t : State), exec i s = .next t → irq t = s.ie) ∧
  (∀ (s t : State) (w : Word), s.busy = false → hostAccess (.write 0x000#14 .word w) s = .next t → irq t = false) ∧
  (∀ (s t : State) (d : Word), d.getLsbD 1 = true → hostAccess (.write 0x004#14 .word d) s = .next t → irq t = false) ∧
  (∀ (s t : State) (d : Word), hostAccess (.write 0x008#14 .word d) s = .next t → irq t = (d.getLsbD 0 && s.done)) ∧
  (∀ (s : State) (o b : Bool), irq { s with overrun := o, buserr := b } = irq s) ∧
  (∀ s : State, irq (resetRegisters s) = false)
end

