-- ==== Sys2Proof/Laws/Bytes.lean ====
section
/-! SUPPORT. Lemmas about byte sequences: byteAt, slice, zeros, and the little-endian conversions with their inverses. -/

namespace Sys2Proof.Machine

@[simp] theorem byteAt_nil (i : Nat) : byteAt [] i = 0#8 := rfl

@[simp] theorem byteAt_cons_zero (b : Byte) (bs : List Byte) : byteAt (b :: bs) 0 = b := rfl

@[simp] theorem byteAt_cons_succ (b : Byte) (bs : List Byte) (i : Nat) : byteAt (b :: bs) (i + 1) = byteAt bs i := by
  simp [byteAt]

theorem byteAt_eq_getElem (bs : List Byte) (i : Nat) (h : i < bs.length) : byteAt bs i = bs[i] := by
  simp [byteAt, h]

theorem byteAt_append_left (as bs : List Byte) (i : Nat) (h : i < as.length) : byteAt (as ++ bs) i = byteAt as i := by
  simp [byteAt, List.getElem?_append_left h]

theorem byteAt_append_right (as bs : List Byte) (i : Nat) : byteAt (as ++ bs) (as.length + i) = byteAt bs i := by
  simp [byteAt, List.getElem?_append_right]

theorem byteAt_take (bs : List Byte) (n i : Nat) (h : i < n) : byteAt (bs.take n) i = byteAt bs i := by
  simp [byteAt, h]

theorem byteAt_drop (bs : List Byte) (n i : Nat) : byteAt (bs.drop n) i = byteAt bs (n + i) := by
  simp [byteAt]

theorem byteAt_slice (bs : List Byte) (a b i : Nat) (h : a + i < b) : byteAt (slice bs a b) i = byteAt bs (a + i) := by
  rw [slice, byteAt_drop, byteAt_take _ _ _ h]

/-- Two sequences of one length are equal when every byte is. -/
theorem eq_of_byteAt (as bs : List Byte) (hl : as.length = bs.length)
    (h : ∀ i, i < as.length → byteAt as i = byteAt bs i) : as = bs := by
  apply List.ext_getElem hl
  intro i h1 h2
  rw [← byteAt_eq_getElem, ← byteAt_eq_getElem]
  exact h i h1

@[simp] theorem length_zeros (n : Nat) : (zeros n).length = n := by simp [zeros]

@[simp] theorem byteAt_zeros (n i : Nat) : byteAt (zeros n) i = 0#8 := by
  simp only [byteAt, zeros, List.getD_eq_getElem?_getD, List.getElem?_replicate]
  split <;> rfl

theorem length_slice (bs : List Byte) (a b : Nat) (h : b ≤ bs.length) : (slice bs a b).length = b - a := by
  simp [slice, h]

@[simp] theorem length_bytesLE16 (v : Half) : (bytesLE16 v).length = 2 := rfl

@[simp] theorem length_bytesLE32 (v : Word) : (bytesLE32 v).length = 4 := rfl

/-- `LE16` inverts `bytesLE16` (R11). -/
@[simp] theorem le16_bytesLE16 (v : Half) : le16 (bytesLE16 v) = v := by
  apply BitVec.eq_of_toNat_eq
  have := v.isLt
  simp [le16, bytesLE16, byteAt, Nat.shiftRight_eq_div_pow]
  omega

/-- `LE32` inverts `bytesLE32` (R11). -/
@[simp] theorem le32_bytesLE32 (v : Word) : le32 (bytesLE32 v) = v := by
  apply BitVec.eq_of_toNat_eq
  have := v.isLt
  simp [le32, bytesLE32, byteAt, Nat.shiftRight_eq_div_pow]
  omega

/-- `bytesLE16` inverts `LE16` on two bytes (R11). -/
theorem bytesLE16_le16 (a b : Byte) : bytesLE16 (le16 [a, b]) = [a, b] := by
  have := a.isLt
  have := b.isLt
  simp only [le16, bytesLE16, byteAt, List.cons.injEq, and_true]
  refine ⟨?_, ?_⟩ <;> apply BitVec.eq_of_toNat_eq <;> simp [Nat.shiftRight_eq_div_pow] <;> omega

/-- `bytesLE32` inverts `LE32` on four bytes (R11). -/
theorem bytesLE32_le32 (a b c d : Byte) : bytesLE32 (le32 [a, b, c, d]) = [a, b, c, d] := by
  have := a.isLt
  have := b.isLt
  have := c.isLt
  have := d.isLt
  simp only [le32, bytesLE32, byteAt, List.cons.injEq, and_true]
  refine ⟨?_, ?_, ?_, ?_⟩ <;> apply BitVec.eq_of_toNat_eq <;> simp [Nat.shiftRight_eq_div_pow] <;> omega

/-- A sequence of four bytes is the bytes of its `LE32` (R11). -/
theorem bytesLE32_le32_of_length (bs : List Byte) (h : bs.length = 4) : bytesLE32 (le32 bs) = bs := by
  match bs, h with
  | [a, b, c, d], _ => exact bytesLE32_le32 a b c d

end Sys2Proof.Machine
end

