-- ==== Sys2Proof/Laws/Memory.lean ====
section
/-! SUPPORT. Laws of the buffers: a byte read after a write, the canonical form kept by every memory operation, and what a range
read and a range write do. -/

namespace Sys2Proof.Machine

/-- The memory right after reset is in canonical form: nothing is listed (R262). -/
theorem reset_mem_wf : State.reset.mem.wf := List.Pairwise.nil

@[simp] theorem Memory.read_nil (a : Nat) : Memory.read [] a = none := rfl

/-- A read after a write: the byte written at its address, the old byte elsewhere. -/
theorem Memory.read_write (m : Memory) (a : Nat) (v : Byte) (x : Nat) :
    (m.write a v).read x = if x = a then some v else m.read x := by
  induction m with
  | nil => simp only [Memory.write, Memory.read, eq_comm]
  | cons c m ih =>
    obtain ⟨y, b⟩ := c
    simp only [Memory.write]
    split
    · simp only [Memory.read, eq_comm]
    · split
      · next h1 h2 =>
        subst h2
        simp only [Memory.read]
        by_cases h : a = x
        · simp [h]
        · simp [h, Ne.symm h]
      · next h1 h2 =>
        simp only [Memory.read, ih]
        by_cases h : y = x
        · subst h
          simp [Ne.symm h2]
        · simp [h]

@[simp] theorem Memory.read_write_self (m : Memory) (a : Nat) (v : Byte) : (m.write a v).read a = some v := by
  simp [Memory.read_write]

theorem Memory.read_write_of_ne (m : Memory) (a : Nat) (v : Byte) (x : Nat) (h : x ≠ a) :
    (m.write a v).read x = m.read x := by
  simp [Memory.read_write, h]

/-- Where the entries of a written memory come from. -/
theorem Memory.mem_write (m : Memory) (a : Nat) (v : Byte) (c : Host.Cell) (h : c ∈ m.write a v) :
    c = (a, v) ∨ c ∈ m := by
  induction m with
  | nil => simpa [Memory.write] using h
  | cons d m ih =>
    obtain ⟨y, b⟩ := d
    simp only [Memory.write] at h
    split at h
    · simpa using h
    · split at h
      · simp only [List.mem_cons] at h ⊢
        tauto
      · simp only [List.mem_cons] at h ⊢
        rcases h with h | h
        · exact .inr (.inl h)
        · exact (ih h).imp id .inr

/-- A write keeps the canonical form. -/
theorem Memory.wf_write (m : Memory) (a : Nat) (v : Byte) (h : m.wf) : (m.write a v).wf := by
  induction m with
  | nil => simp [Memory.write, Memory.wf]
  | cons c m ih =>
    obtain ⟨y, b⟩ := c
    obtain ⟨h1, h2⟩ := List.pairwise_cons.mp h
    simp only [Memory.write]
    split
    · next hlt =>
      refine List.pairwise_cons.mpr ⟨fun d hd => ?_, h⟩
      rcases List.mem_cons.mp hd with rfl | hd
      · exact hlt
      · exact Nat.lt_trans hlt (h1 d hd)
    · split
      · next h3 h4 =>
        subst h4
        exact List.pairwise_cons.mpr ⟨h1, h2⟩
      · next h3 h4 =>
        refine List.pairwise_cons.mpr ⟨fun d hd => ?_, ih h2⟩
        rcases Memory.mem_write m a v d hd with rfl | hd
        · show y < a
          omega
        · exact h1 d hd

/-- A range write keeps the canonical form. -/
theorem Memory.wf_writeRange (m : Memory) (a : Nat) (bs : List Byte) (h : m.wf) : (m.writeRange a bs).wf := by
  induction bs generalizing m a with
  | nil => exact h
  | cons b bs ih => exact ih _ _ (Memory.wf_write m a b h)

/-- Where the entries of a range-written memory lie. -/
theorem Memory.mem_writeRange (m : Memory) (a : Nat) (bs : List Byte) (c : Host.Cell) (h : c ∈ m.writeRange a bs) :
    (a ≤ c.1 ∧ c.1 < a + bs.length) ∨ c ∈ m := by
  induction bs generalizing m a with
  | nil => exact .inr h
  | cons b bs ih =>
    rcases ih _ _ h with h | h
    · left
      simp only [List.length_cons]
      omega
    · rcases Memory.mem_write m a b c h with rfl | h
      · left
        simp only [List.length_cons]
        omega
      · exact .inr h

/-- What a byte reads as after a range write. -/
theorem Memory.read_writeRange (m : Memory) (a : Nat) (bs : List Byte) (x : Nat) :
    (m.writeRange a bs).read x = if a ≤ x ∧ x < a + bs.length then some (byteAt bs (x - a)) else m.read x := by
  induction bs generalizing m a with
  | nil => simp [Memory.writeRange]
  | cons b bs ih =>
    simp only [Memory.writeRange, ih, Memory.read_write, List.length_cons]
    by_cases h1 : x = a
    · subst h1
      simp
    · by_cases h2 : a + 1 ≤ x ∧ x < a + 1 + bs.length
      · rw [if_pos h2, if_pos (by omega)]
        obtain ⟨k, rfl⟩ : ∃ k, x = a + 1 + k := ⟨x - (a + 1), by omega⟩
        rw [show a + 1 + k - (a + 1) = k by omega, show a + 1 + k - a = k + 1 by omega, byteAt_cons_succ]
      · rw [if_neg h2, if_neg h1, if_neg (by omega)]

/-- A range write stores its bytes. -/
theorem holdsBytes_writeRange (m : Memory) (a : Nat) (bs : List Byte) : HoldsBytes (m.writeRange a bs) a bs := by
  intro k hk
  rw [Memory.read_writeRange, if_pos (by omega), Nat.add_sub_cancel_left]

/-- A range write changes no byte outside its range. -/
theorem sameOutside_writeRange (m : Memory) (a : Nat) (bs : List Byte) :
    SameOutside m (m.writeRange a bs) a bs.length := by
  intro x hx
  rw [Memory.read_writeRange, if_neg (by omega)]

/-- A range read that succeeds gives `n` bytes, and the memory holds them. -/
theorem Memory.readRange_ok (m : Memory) (a n : Nat) (bs : List Byte) (h : m.readRange a n = .ok bs) :
    bs.length = n ∧ HoldsBytes m a bs := by
  induction n generalizing a bs with
  | zero =>
    simp only [Memory.readRange, Except.ok.injEq] at h
    subst h
    exact ⟨rfl, fun k hk => absurd hk (Nat.not_lt_zero k)⟩
  | succ n ih =>
    simp only [Memory.readRange] at h
    split at h
    · cases h
    · next b hb =>
      split at h
      · cases h
      · next cs hcs =>
        cases h
        obtain ⟨hl, hh⟩ := ih _ _ hcs
        refine ⟨by simp [hl], fun k hk => ?_⟩
        cases k with
        | zero => simpa using hb
        | succ k =>
          rw [byteAt_cons_succ, show a + (k + 1) = a + 1 + k by omega]
          exact hh k (by simpa using hk)

/-- A range read that fails names an unspecified byte of the range. -/
theorem Memory.readRange_error (m : Memory) (a n x : Nat) (h : m.readRange a n = .error x) :
    m.read x = none ∧ a ≤ x ∧ x < a + n := by
  induction n generalizing a with
  | zero => simp [Memory.readRange] at h
  | succ n ih =>
    simp only [Memory.readRange] at h
    split at h
    · next hb =>
      cases h
      exact ⟨hb, by omega, by omega⟩
    · split at h
      · next hcs =>
        cases h
        obtain ⟨h1, h2, h3⟩ := ih _ hcs
        exact ⟨h1, by omega, by omega⟩
      · cases h

/-- The one sequence of bytes a memory holds in a range. -/
theorem HoldsBytes.unique {m : Memory} {a : Nat} {as bs : List Byte} (hl : as.length = bs.length)
    (ha : HoldsBytes m a as) (hb : HoldsBytes m a bs) : as = bs := by
  refine eq_of_byteAt as bs hl fun i hi => ?_
  have := (ha i hi).symm.trans (hb i (hl ▸ hi))
  simpa using this

/-- A range read of bytes the memory holds gives those bytes. -/
theorem Memory.readRange_of_holds (m : Memory) (a : Nat) (bs : List Byte) (h : HoldsBytes m a bs) :
    m.readRange a bs.length = .ok bs := by
  cases hr : m.readRange a bs.length with
  | error x =>
    obtain ⟨h1, h2, h3⟩ := Memory.readRange_error m a _ x hr
    have := h (x - a) (by omega)
    rw [show a + (x - a) = x by omega, h1] at this
    cases this
  | ok cs =>
    obtain ⟨hl, hh⟩ := Memory.readRange_ok m a _ cs hr
    rw [hh.unique hl h]

/-- A range read of specified bytes succeeds. -/
theorem Memory.readRange_of_specified (m : Memory) (a n : Nat) (h : Specified m a n) :
    ∃ bs, m.readRange a n = .ok bs := by
  cases hr : m.readRange a n with
  | error x =>
    obtain ⟨h1, h2, h3⟩ := Memory.readRange_error m a _ x hr
    have := h (x - a) (by omega)
    rw [show a + (x - a) = x by omega, h1] at this
    cases this
  | ok cs => exact ⟨cs, rfl⟩

/-- A part of a held sequence is held. -/
theorem HoldsBytes.slice {m : Memory} {a : Nat} {bs : List Byte} (h : HoldsBytes m a bs) (lo hi : Nat)
    (hhi : hi ≤ bs.length) : HoldsBytes m (a + lo) (slice bs lo hi) := by
  intro k hk
  rw [length_slice _ _ _ hhi] at hk
  rw [byteAt_slice _ _ _ _ (by omega), Nat.add_assoc]
  exact h (lo + k) (by omega)

/-- Held bytes stay held under a change outside them. -/
theorem HoldsBytes.of_sameOutside {m m' : Memory} {a b n : Nat} {bs : List Byte} (h : HoldsBytes m a bs)
    (hs : SameOutside m m' b n) (hd : a + bs.length ≤ b ∨ b + n ≤ a) : HoldsBytes m' a bs := by
  intro k hk
  rw [hs (a + k) (by omega)]
  exact h k hk

end Sys2Proof.Machine
end

