-- ==== Sys2Proof/Laws/State.lean ====
section
/-! SUPPORT. For each named update of the state, what each field is afterwards: one lemma per field, true by rfl, so that no proof
unfolds a record update. -/

namespace Sys2Proof.Machine

/-! ### complete -/

@[simp] theorem complete_cfg (code : ErrCode) (s : State) : (complete code s).cfg = s.cfg := rfl
@[simp] theorem complete_cmd (code : ErrCode) (s : State) : (complete code s).cmd = s.cmd := rfl
@[simp] theorem complete_busy (code : ErrCode) (s : State) : (complete code s).busy = false := rfl
@[simp] theorem complete_done (code : ErrCode) (s : State) : (complete code s).done = true := rfl
@[simp] theorem complete_valid (code : ErrCode) (s : State) : (complete code s).valid = s.valid := rfl
@[simp] theorem complete_err (code : ErrCode) (s : State) : (complete code s).err = code := rfl
@[simp] theorem complete_overrun (code : ErrCode) (s : State) : (complete code s).overrun = s.overrun := rfl
@[simp] theorem complete_buserr (code : ErrCode) (s : State) : (complete code s).buserr = s.buserr := rfl
@[simp] theorem complete_ie (code : ErrCode) (s : State) : (complete code s).ie = s.ie := rfl
@[simp] theorem complete_flen (code : ErrCode) (s : State) : (complete code s).flen = s.flen := rfl
@[simp] theorem complete_plen (code : ErrCode) (s : State) : (complete code s).plen = s.plen := rfl
@[simp] theorem complete_devtype (code : ErrCode) (s : State) : (complete code s).devtype = s.devtype := rfl
@[simp] theorem complete_tag (code : ErrCode) (s : State) : (complete code s).tag = s.tag := rfl
@[simp] theorem complete_seq (code : ErrCode) (s : State) : (complete code s).seq = s.seq := rfl
@[simp] theorem complete_macLo (code : ErrCode) (s : State) : (complete code s).macLo = s.macLo := rfl
@[simp] theorem complete_macHi (code : ErrCode) (s : State) : (complete code s).macHi = s.macHi := rfl
@[simp] theorem complete_devid (code : ErrCode) (s : State) : (complete code s).devid = s.devid := rfl
@[simp] theorem complete_cksum (code : ErrCode) (s : State) : (complete code s).cksum = s.cksum := rfl
@[simp] theorem complete_pcksum (code : ErrCode) (s : State) : (complete code s).pcksum = s.pcksum := rfl
@[simp] theorem complete_key0 (code : ErrCode) (s : State) : (complete code s).key0 = s.key0 := rfl
@[simp] theorem complete_key1 (code : ErrCode) (s : State) : (complete code s).key1 = s.key1 := rfl
@[simp] theorem complete_key2 (code : ErrCode) (s : State) : (complete code s).key2 = s.key2 := rfl
@[simp] theorem complete_key3 (code : ErrCode) (s : State) : (complete code s).key3 = s.key3 := rfl
@[simp] theorem complete_rxDevtype (code : ErrCode) (s : State) : (complete code s).rxDevtype = s.rxDevtype := rfl
@[simp] theorem complete_rxTag (code : ErrCode) (s : State) : (complete code s).rxTag = s.rxTag := rfl
@[simp] theorem complete_rxSeq (code : ErrCode) (s : State) : (complete code s).rxSeq = s.rxSeq := rfl
@[simp] theorem complete_rxMacLo (code : ErrCode) (s : State) : (complete code s).rxMacLo = s.rxMacLo := rfl
@[simp] theorem complete_rxMacHi (code : ErrCode) (s : State) : (complete code s).rxMacHi = s.rxMacHi := rfl
@[simp] theorem complete_rxDevid (code : ErrCode) (s : State) : (complete code s).rxDevid = s.rxDevid := rfl
@[simp] theorem complete_rxErrcode (code : ErrCode) (s : State) : (complete code s).rxErrcode = s.rxErrcode := rfl
@[simp] theorem complete_rxPcksum (code : ErrCode) (s : State) : (complete code s).rxPcksum = s.rxPcksum := rfl
@[simp] theorem complete_rxFcksum (code : ErrCode) (s : State) : (complete code s).rxFcksum = s.rxFcksum := rfl
@[simp] theorem complete_mem (code : ErrCode) (s : State) : (complete code s).mem = s.mem := rfl
@[simp] theorem complete_rst (code : ErrCode) (s : State) : (complete code s).rst = s.rst := rfl
@[simp] theorem complete_rdata (code : ErrCode) (s : State) : (complete code s).rdata = s.rdata := rfl
@[simp] theorem complete_turns (code : ErrCode) (s : State) : (complete code s).turns = s.turns := rfl
@[simp] theorem complete_freeCount (code : ErrCode) (s : State) : (complete code s).freeCount = s.freeCount := rfl

/-! ### issue -/

@[simp] theorem issue_cfg (w : Word) (s : State) : (issue w s).cfg = s.cfg := rfl
@[simp] theorem issue_cmd (w : Word) (s : State) : (issue w s).cmd = w := rfl
@[simp] theorem issue_busy (w : Word) (s : State) : (issue w s).busy = true := rfl
@[simp] theorem issue_done (w : Word) (s : State) : (issue w s).done = false := rfl
@[simp] theorem issue_valid (w : Word) (s : State) : (issue w s).valid = s.valid := rfl
@[simp] theorem issue_err (w : Word) (s : State) : (issue w s).err = s.err := rfl
@[simp] theorem issue_overrun (w : Word) (s : State) : (issue w s).overrun = s.overrun := rfl
@[simp] theorem issue_buserr (w : Word) (s : State) : (issue w s).buserr = s.buserr := rfl
@[simp] theorem issue_ie (w : Word) (s : State) : (issue w s).ie = s.ie := rfl
@[simp] theorem issue_flen (w : Word) (s : State) : (issue w s).flen = s.flen := rfl
@[simp] theorem issue_plen (w : Word) (s : State) : (issue w s).plen = s.plen := rfl
@[simp] theorem issue_devtype (w : Word) (s : State) : (issue w s).devtype = s.devtype := rfl
@[simp] theorem issue_tag (w : Word) (s : State) : (issue w s).tag = s.tag := rfl
@[simp] theorem issue_seq (w : Word) (s : State) : (issue w s).seq = s.seq := rfl
@[simp] theorem issue_macLo (w : Word) (s : State) : (issue w s).macLo = s.macLo := rfl
@[simp] theorem issue_macHi (w : Word) (s : State) : (issue w s).macHi = s.macHi := rfl
@[simp] theorem issue_devid (w : Word) (s : State) : (issue w s).devid = s.devid := rfl
@[simp] theorem issue_cksum (w : Word) (s : State) : (issue w s).cksum = s.cksum := rfl
@[simp] theorem issue_pcksum (w : Word) (s : State) : (issue w s).pcksum = s.pcksum := rfl
@[simp] theorem issue_key0 (w : Word) (s : State) : (issue w s).key0 = s.key0 := rfl
@[simp] theorem issue_key1 (w : Word) (s : State) : (issue w s).key1 = s.key1 := rfl
@[simp] theorem issue_key2 (w : Word) (s : State) : (issue w s).key2 = s.key2 := rfl
@[simp] theorem issue_key3 (w : Word) (s : State) : (issue w s).key3 = s.key3 := rfl
@[simp] theorem issue_rxDevtype (w : Word) (s : State) : (issue w s).rxDevtype = s.rxDevtype := rfl
@[simp] theorem issue_rxTag (w : Word) (s : State) : (issue w s).rxTag = s.rxTag := rfl
@[simp] theorem issue_rxSeq (w : Word) (s : State) : (issue w s).rxSeq = s.rxSeq := rfl
@[simp] theorem issue_rxMacLo (w : Word) (s : State) : (issue w s).rxMacLo = s.rxMacLo := rfl
@[simp] theorem issue_rxMacHi (w : Word) (s : State) : (issue w s).rxMacHi = s.rxMacHi := rfl
@[simp] theorem issue_rxDevid (w : Word) (s : State) : (issue w s).rxDevid = s.rxDevid := rfl
@[simp] theorem issue_rxErrcode (w : Word) (s : State) : (issue w s).rxErrcode = s.rxErrcode := rfl
@[simp] theorem issue_rxPcksum (w : Word) (s : State) : (issue w s).rxPcksum = s.rxPcksum := rfl
@[simp] theorem issue_rxFcksum (w : Word) (s : State) : (issue w s).rxFcksum = s.rxFcksum := rfl
@[simp] theorem issue_mem (w : Word) (s : State) : (issue w s).mem = s.mem := rfl
@[simp] theorem issue_rst (w : Word) (s : State) : (issue w s).rst = s.rst := rfl
@[simp] theorem issue_rdata (w : Word) (s : State) : (issue w s).rdata = s.rdata := rfl
@[simp] theorem issue_turns (w : Word) (s : State) : (issue w s).turns = s.turns := rfl
@[simp] theorem issue_freeCount (w : Word) (s : State) : (issue w s).freeCount = s.freeCount := rfl

/-! ### withTurns -/

@[simp] theorem withTurns_cfg (ts : List Turn) (s : State) : (withTurns ts s).cfg = s.cfg := rfl
@[simp] theorem withTurns_cmd (ts : List Turn) (s : State) : (withTurns ts s).cmd = s.cmd := rfl
@[simp] theorem withTurns_busy (ts : List Turn) (s : State) : (withTurns ts s).busy = s.busy := rfl
@[simp] theorem withTurns_done (ts : List Turn) (s : State) : (withTurns ts s).done = s.done := rfl
@[simp] theorem withTurns_valid (ts : List Turn) (s : State) : (withTurns ts s).valid = s.valid := rfl
@[simp] theorem withTurns_err (ts : List Turn) (s : State) : (withTurns ts s).err = s.err := rfl
@[simp] theorem withTurns_overrun (ts : List Turn) (s : State) : (withTurns ts s).overrun = s.overrun := rfl
@[simp] theorem withTurns_buserr (ts : List Turn) (s : State) : (withTurns ts s).buserr = s.buserr := rfl
@[simp] theorem withTurns_ie (ts : List Turn) (s : State) : (withTurns ts s).ie = s.ie := rfl
@[simp] theorem withTurns_flen (ts : List Turn) (s : State) : (withTurns ts s).flen = s.flen := rfl
@[simp] theorem withTurns_plen (ts : List Turn) (s : State) : (withTurns ts s).plen = s.plen := rfl
@[simp] theorem withTurns_devtype (ts : List Turn) (s : State) : (withTurns ts s).devtype = s.devtype := rfl
@[simp] theorem withTurns_tag (ts : List Turn) (s : State) : (withTurns ts s).tag = s.tag := rfl
@[simp] theorem withTurns_seq (ts : List Turn) (s : State) : (withTurns ts s).seq = s.seq := rfl
@[simp] theorem withTurns_macLo (ts : List Turn) (s : State) : (withTurns ts s).macLo = s.macLo := rfl
@[simp] theorem withTurns_macHi (ts : List Turn) (s : State) : (withTurns ts s).macHi = s.macHi := rfl
@[simp] theorem withTurns_devid (ts : List Turn) (s : State) : (withTurns ts s).devid = s.devid := rfl
@[simp] theorem withTurns_cksum (ts : List Turn) (s : State) : (withTurns ts s).cksum = s.cksum := rfl
@[simp] theorem withTurns_pcksum (ts : List Turn) (s : State) : (withTurns ts s).pcksum = s.pcksum := rfl
@[simp] theorem withTurns_key0 (ts : List Turn) (s : State) : (withTurns ts s).key0 = s.key0 := rfl
@[simp] theorem withTurns_key1 (ts : List Turn) (s : State) : (withTurns ts s).key1 = s.key1 := rfl
@[simp] theorem withTurns_key2 (ts : List Turn) (s : State) : (withTurns ts s).key2 = s.key2 := rfl
@[simp] theorem withTurns_key3 (ts : List Turn) (s : State) : (withTurns ts s).key3 = s.key3 := rfl
@[simp] theorem withTurns_rxDevtype (ts : List Turn) (s : State) : (withTurns ts s).rxDevtype = s.rxDevtype := rfl
@[simp] theorem withTurns_rxTag (ts : List Turn) (s : State) : (withTurns ts s).rxTag = s.rxTag := rfl
@[simp] theorem withTurns_rxSeq (ts : List Turn) (s : State) : (withTurns ts s).rxSeq = s.rxSeq := rfl
@[simp] theorem withTurns_rxMacLo (ts : List Turn) (s : State) : (withTurns ts s).rxMacLo = s.rxMacLo := rfl
@[simp] theorem withTurns_rxMacHi (ts : List Turn) (s : State) : (withTurns ts s).rxMacHi = s.rxMacHi := rfl
@[simp] theorem withTurns_rxDevid (ts : List Turn) (s : State) : (withTurns ts s).rxDevid = s.rxDevid := rfl
@[simp] theorem withTurns_rxErrcode (ts : List Turn) (s : State) : (withTurns ts s).rxErrcode = s.rxErrcode := rfl
@[simp] theorem withTurns_rxPcksum (ts : List Turn) (s : State) : (withTurns ts s).rxPcksum = s.rxPcksum := rfl
@[simp] theorem withTurns_rxFcksum (ts : List Turn) (s : State) : (withTurns ts s).rxFcksum = s.rxFcksum := rfl
@[simp] theorem withTurns_mem (ts : List Turn) (s : State) : (withTurns ts s).mem = s.mem := rfl
@[simp] theorem withTurns_rst (ts : List Turn) (s : State) : (withTurns ts s).rst = s.rst := rfl
@[simp] theorem withTurns_rdata (ts : List Turn) (s : State) : (withTurns ts s).rdata = s.rdata := rfl
@[simp] theorem withTurns_turns (ts : List Turn) (s : State) : (withTurns ts s).turns = ts := rfl
@[simp] theorem withTurns_freeCount (ts : List Turn) (s : State) : (withTurns ts s).freeCount = s.freeCount := rfl

/-! ### returnData -/

@[simp] theorem returnData_cfg (v : Word) (s : State) : (returnData v s).cfg = s.cfg := rfl
@[simp] theorem returnData_cmd (v : Word) (s : State) : (returnData v s).cmd = s.cmd := rfl
@[simp] theorem returnData_busy (v : Word) (s : State) : (returnData v s).busy = s.busy := rfl
@[simp] theorem returnData_done (v : Word) (s : State) : (returnData v s).done = s.done := rfl
@[simp] theorem returnData_valid (v : Word) (s : State) : (returnData v s).valid = s.valid := rfl
@[simp] theorem returnData_err (v : Word) (s : State) : (returnData v s).err = s.err := rfl
@[simp] theorem returnData_overrun (v : Word) (s : State) : (returnData v s).overrun = s.overrun := rfl
@[simp] theorem returnData_buserr (v : Word) (s : State) : (returnData v s).buserr = s.buserr := rfl
@[simp] theorem returnData_ie (v : Word) (s : State) : (returnData v s).ie = s.ie := rfl
@[simp] theorem returnData_flen (v : Word) (s : State) : (returnData v s).flen = s.flen := rfl
@[simp] theorem returnData_plen (v : Word) (s : State) : (returnData v s).plen = s.plen := rfl
@[simp] theorem returnData_devtype (v : Word) (s : State) : (returnData v s).devtype = s.devtype := rfl
@[simp] theorem returnData_tag (v : Word) (s : State) : (returnData v s).tag = s.tag := rfl
@[simp] theorem returnData_seq (v : Word) (s : State) : (returnData v s).seq = s.seq := rfl
@[simp] theorem returnData_macLo (v : Word) (s : State) : (returnData v s).macLo = s.macLo := rfl
@[simp] theorem returnData_macHi (v : Word) (s : State) : (returnData v s).macHi = s.macHi := rfl
@[simp] theorem returnData_devid (v : Word) (s : State) : (returnData v s).devid = s.devid := rfl
@[simp] theorem returnData_cksum (v : Word) (s : State) : (returnData v s).cksum = s.cksum := rfl
@[simp] theorem returnData_pcksum (v : Word) (s : State) : (returnData v s).pcksum = s.pcksum := rfl
@[simp] theorem returnData_key0 (v : Word) (s : State) : (returnData v s).key0 = s.key0 := rfl
@[simp] theorem returnData_key1 (v : Word) (s : State) : (returnData v s).key1 = s.key1 := rfl
@[simp] theorem returnData_key2 (v : Word) (s : State) : (returnData v s).key2 = s.key2 := rfl
@[simp] theorem returnData_key3 (v : Word) (s : State) : (returnData v s).key3 = s.key3 := rfl
@[simp] theorem returnData_rxDevtype (v : Word) (s : State) : (returnData v s).rxDevtype = s.rxDevtype := rfl
@[simp] theorem returnData_rxTag (v : Word) (s : State) : (returnData v s).rxTag = s.rxTag := rfl
@[simp] theorem returnData_rxSeq (v : Word) (s : State) : (returnData v s).rxSeq = s.rxSeq := rfl
@[simp] theorem returnData_rxMacLo (v : Word) (s : State) : (returnData v s).rxMacLo = s.rxMacLo := rfl
@[simp] theorem returnData_rxMacHi (v : Word) (s : State) : (returnData v s).rxMacHi = s.rxMacHi := rfl
@[simp] theorem returnData_rxDevid (v : Word) (s : State) : (returnData v s).rxDevid = s.rxDevid := rfl
@[simp] theorem returnData_rxErrcode (v : Word) (s : State) : (returnData v s).rxErrcode = s.rxErrcode := rfl
@[simp] theorem returnData_rxPcksum (v : Word) (s : State) : (returnData v s).rxPcksum = s.rxPcksum := rfl
@[simp] theorem returnData_rxFcksum (v : Word) (s : State) : (returnData v s).rxFcksum = s.rxFcksum := rfl
@[simp] theorem returnData_mem (v : Word) (s : State) : (returnData v s).mem = s.mem := rfl
@[simp] theorem returnData_rst (v : Word) (s : State) : (returnData v s).rst = s.rst := rfl
@[simp] theorem returnData_rdata (v : Word) (s : State) : (returnData v s).rdata = v := rfl
@[simp] theorem returnData_turns (v : Word) (s : State) : (returnData v s).turns = s.turns := rfl
@[simp] theorem returnData_freeCount (v : Word) (s : State) : (returnData v s).freeCount = s.freeCount := rfl

/-! ### busError -/

@[simp] theorem busError_cfg (s : State) : (busError s).cfg = s.cfg := rfl
@[simp] theorem busError_cmd (s : State) : (busError s).cmd = s.cmd := rfl
@[simp] theorem busError_busy (s : State) : (busError s).busy = s.busy := rfl
@[simp] theorem busError_done (s : State) : (busError s).done = s.done := rfl
@[simp] theorem busError_valid (s : State) : (busError s).valid = s.valid := rfl
@[simp] theorem busError_err (s : State) : (busError s).err = s.err := rfl
@[simp] theorem busError_overrun (s : State) : (busError s).overrun = s.overrun := rfl
@[simp] theorem busError_buserr (s : State) : (busError s).buserr = true := rfl
@[simp] theorem busError_ie (s : State) : (busError s).ie = s.ie := rfl
@[simp] theorem busError_flen (s : State) : (busError s).flen = s.flen := rfl
@[simp] theorem busError_plen (s : State) : (busError s).plen = s.plen := rfl
@[simp] theorem busError_devtype (s : State) : (busError s).devtype = s.devtype := rfl
@[simp] theorem busError_tag (s : State) : (busError s).tag = s.tag := rfl
@[simp] theorem busError_seq (s : State) : (busError s).seq = s.seq := rfl
@[simp] theorem busError_macLo (s : State) : (busError s).macLo = s.macLo := rfl
@[simp] theorem busError_macHi (s : State) : (busError s).macHi = s.macHi := rfl
@[simp] theorem busError_devid (s : State) : (busError s).devid = s.devid := rfl
@[simp] theorem busError_cksum (s : State) : (busError s).cksum = s.cksum := rfl
@[simp] theorem busError_pcksum (s : State) : (busError s).pcksum = s.pcksum := rfl
@[simp] theorem busError_key0 (s : State) : (busError s).key0 = s.key0 := rfl
@[simp] theorem busError_key1 (s : State) : (busError s).key1 = s.key1 := rfl
@[simp] theorem busError_key2 (s : State) : (busError s).key2 = s.key2 := rfl
@[simp] theorem busError_key3 (s : State) : (busError s).key3 = s.key3 := rfl
@[simp] theorem busError_rxDevtype (s : State) : (busError s).rxDevtype = s.rxDevtype := rfl
@[simp] theorem busError_rxTag (s : State) : (busError s).rxTag = s.rxTag := rfl
@[simp] theorem busError_rxSeq (s : State) : (busError s).rxSeq = s.rxSeq := rfl
@[simp] theorem busError_rxMacLo (s : State) : (busError s).rxMacLo = s.rxMacLo := rfl
@[simp] theorem busError_rxMacHi (s : State) : (busError s).rxMacHi = s.rxMacHi := rfl
@[simp] theorem busError_rxDevid (s : State) : (busError s).rxDevid = s.rxDevid := rfl
@[simp] theorem busError_rxErrcode (s : State) : (busError s).rxErrcode = s.rxErrcode := rfl
@[simp] theorem busError_rxPcksum (s : State) : (busError s).rxPcksum = s.rxPcksum := rfl
@[simp] theorem busError_rxFcksum (s : State) : (busError s).rxFcksum = s.rxFcksum := rfl
@[simp] theorem busError_mem (s : State) : (busError s).mem = s.mem := rfl
@[simp] theorem busError_rst (s : State) : (busError s).rst = s.rst := rfl
@[simp] theorem busError_rdata (s : State) : (busError s).rdata = s.rdata := rfl
@[simp] theorem busError_turns (s : State) : (busError s).turns = s.turns := rfl
@[simp] theorem busError_freeCount (s : State) : (busError s).freeCount = s.freeCount := rfl

/-! ### dropWrite -/

@[simp] theorem dropWrite_cfg (s : State) : (dropWrite s).cfg = s.cfg := rfl
@[simp] theorem dropWrite_cmd (s : State) : (dropWrite s).cmd = s.cmd := rfl
@[simp] theorem dropWrite_busy (s : State) : (dropWrite s).busy = s.busy := rfl
@[simp] theorem dropWrite_done (s : State) : (dropWrite s).done = s.done := rfl
@[simp] theorem dropWrite_valid (s : State) : (dropWrite s).valid = s.valid := rfl
@[simp] theorem dropWrite_err (s : State) : (dropWrite s).err = s.err := rfl
@[simp] theorem dropWrite_overrun (s : State) : (dropWrite s).overrun = true := rfl
@[simp] theorem dropWrite_buserr (s : State) : (dropWrite s).buserr = s.buserr := rfl
@[simp] theorem dropWrite_ie (s : State) : (dropWrite s).ie = s.ie := rfl
@[simp] theorem dropWrite_flen (s : State) : (dropWrite s).flen = s.flen := rfl
@[simp] theorem dropWrite_plen (s : State) : (dropWrite s).plen = s.plen := rfl
@[simp] theorem dropWrite_devtype (s : State) : (dropWrite s).devtype = s.devtype := rfl
@[simp] theorem dropWrite_tag (s : State) : (dropWrite s).tag = s.tag := rfl
@[simp] theorem dropWrite_seq (s : State) : (dropWrite s).seq = s.seq := rfl
@[simp] theorem dropWrite_macLo (s : State) : (dropWrite s).macLo = s.macLo := rfl
@[simp] theorem dropWrite_macHi (s : State) : (dropWrite s).macHi = s.macHi := rfl
@[simp] theorem dropWrite_devid (s : State) : (dropWrite s).devid = s.devid := rfl
@[simp] theorem dropWrite_cksum (s : State) : (dropWrite s).cksum = s.cksum := rfl
@[simp] theorem dropWrite_pcksum (s : State) : (dropWrite s).pcksum = s.pcksum := rfl
@[simp] theorem dropWrite_key0 (s : State) : (dropWrite s).key0 = s.key0 := rfl
@[simp] theorem dropWrite_key1 (s : State) : (dropWrite s).key1 = s.key1 := rfl
@[simp] theorem dropWrite_key2 (s : State) : (dropWrite s).key2 = s.key2 := rfl
@[simp] theorem dropWrite_key3 (s : State) : (dropWrite s).key3 = s.key3 := rfl
@[simp] theorem dropWrite_rxDevtype (s : State) : (dropWrite s).rxDevtype = s.rxDevtype := rfl
@[simp] theorem dropWrite_rxTag (s : State) : (dropWrite s).rxTag = s.rxTag := rfl
@[simp] theorem dropWrite_rxSeq (s : State) : (dropWrite s).rxSeq = s.rxSeq := rfl
@[simp] theorem dropWrite_rxMacLo (s : State) : (dropWrite s).rxMacLo = s.rxMacLo := rfl
@[simp] theorem dropWrite_rxMacHi (s : State) : (dropWrite s).rxMacHi = s.rxMacHi := rfl
@[simp] theorem dropWrite_rxDevid (s : State) : (dropWrite s).rxDevid = s.rxDevid := rfl
@[simp] theorem dropWrite_rxErrcode (s : State) : (dropWrite s).rxErrcode = s.rxErrcode := rfl
@[simp] theorem dropWrite_rxPcksum (s : State) : (dropWrite s).rxPcksum = s.rxPcksum := rfl
@[simp] theorem dropWrite_rxFcksum (s : State) : (dropWrite s).rxFcksum = s.rxFcksum := rfl
@[simp] theorem dropWrite_mem (s : State) : (dropWrite s).mem = s.mem := rfl
@[simp] theorem dropWrite_rst (s : State) : (dropWrite s).rst = s.rst := rfl
@[simp] theorem dropWrite_rdata (s : State) : (dropWrite s).rdata = s.rdata := rfl
@[simp] theorem dropWrite_turns (s : State) : (dropWrite s).turns = s.turns := rfl
@[simp] theorem dropWrite_freeCount (s : State) : (dropWrite s).freeCount = s.freeCount := rfl

/-! ### writeFrame -/

@[simp] theorem writeFrame_cfg (bs : List Byte) (s : State) : (writeFrame bs s).cfg = s.cfg := rfl
@[simp] theorem writeFrame_cmd (bs : List Byte) (s : State) : (writeFrame bs s).cmd = s.cmd := rfl
@[simp] theorem writeFrame_busy (bs : List Byte) (s : State) : (writeFrame bs s).busy = s.busy := rfl
@[simp] theorem writeFrame_done (bs : List Byte) (s : State) : (writeFrame bs s).done = s.done := rfl
@[simp] theorem writeFrame_valid (bs : List Byte) (s : State) : (writeFrame bs s).valid = s.valid := rfl
@[simp] theorem writeFrame_err (bs : List Byte) (s : State) : (writeFrame bs s).err = s.err := rfl
@[simp] theorem writeFrame_overrun (bs : List Byte) (s : State) : (writeFrame bs s).overrun = s.overrun := rfl
@[simp] theorem writeFrame_buserr (bs : List Byte) (s : State) : (writeFrame bs s).buserr = s.buserr := rfl
@[simp] theorem writeFrame_ie (bs : List Byte) (s : State) : (writeFrame bs s).ie = s.ie := rfl
@[simp] theorem writeFrame_flen (bs : List Byte) (s : State) : (writeFrame bs s).flen = s.flen := rfl
@[simp] theorem writeFrame_plen (bs : List Byte) (s : State) : (writeFrame bs s).plen = s.plen := rfl
@[simp] theorem writeFrame_devtype (bs : List Byte) (s : State) : (writeFrame bs s).devtype = s.devtype := rfl
@[simp] theorem writeFrame_tag (bs : List Byte) (s : State) : (writeFrame bs s).tag = s.tag := rfl
@[simp] theorem writeFrame_seq (bs : List Byte) (s : State) : (writeFrame bs s).seq = s.seq := rfl
@[simp] theorem writeFrame_macLo (bs : List Byte) (s : State) : (writeFrame bs s).macLo = s.macLo := rfl
@[simp] theorem writeFrame_macHi (bs : List Byte) (s : State) : (writeFrame bs s).macHi = s.macHi := rfl
@[simp] theorem writeFrame_devid (bs : List Byte) (s : State) : (writeFrame bs s).devid = s.devid := rfl
@[simp] theorem writeFrame_cksum (bs : List Byte) (s : State) : (writeFrame bs s).cksum = s.cksum := rfl
@[simp] theorem writeFrame_pcksum (bs : List Byte) (s : State) : (writeFrame bs s).pcksum = s.pcksum := rfl
@[simp] theorem writeFrame_key0 (bs : List Byte) (s : State) : (writeFrame bs s).key0 = s.key0 := rfl
@[simp] theorem writeFrame_key1 (bs : List Byte) (s : State) : (writeFrame bs s).key1 = s.key1 := rfl
@[simp] theorem writeFrame_key2 (bs : List Byte) (s : State) : (writeFrame bs s).key2 = s.key2 := rfl
@[simp] theorem writeFrame_key3 (bs : List Byte) (s : State) : (writeFrame bs s).key3 = s.key3 := rfl
@[simp] theorem writeFrame_rxDevtype (bs : List Byte) (s : State) : (writeFrame bs s).rxDevtype = s.rxDevtype := rfl
@[simp] theorem writeFrame_rxTag (bs : List Byte) (s : State) : (writeFrame bs s).rxTag = s.rxTag := rfl
@[simp] theorem writeFrame_rxSeq (bs : List Byte) (s : State) : (writeFrame bs s).rxSeq = s.rxSeq := rfl
@[simp] theorem writeFrame_rxMacLo (bs : List Byte) (s : State) : (writeFrame bs s).rxMacLo = s.rxMacLo := rfl
@[simp] theorem writeFrame_rxMacHi (bs : List Byte) (s : State) : (writeFrame bs s).rxMacHi = s.rxMacHi := rfl
@[simp] theorem writeFrame_rxDevid (bs : List Byte) (s : State) : (writeFrame bs s).rxDevid = s.rxDevid := rfl
@[simp] theorem writeFrame_rxErrcode (bs : List Byte) (s : State) : (writeFrame bs s).rxErrcode = s.rxErrcode := rfl
@[simp] theorem writeFrame_rxPcksum (bs : List Byte) (s : State) : (writeFrame bs s).rxPcksum = s.rxPcksum := rfl
@[simp] theorem writeFrame_rxFcksum (bs : List Byte) (s : State) : (writeFrame bs s).rxFcksum = s.rxFcksum := rfl
@[simp] theorem writeFrame_mem (bs : List Byte) (s : State) : (writeFrame bs s).mem = s.mem.writeRange fbufBase bs := rfl
@[simp] theorem writeFrame_rst (bs : List Byte) (s : State) : (writeFrame bs s).rst = s.rst := rfl
@[simp] theorem writeFrame_rdata (bs : List Byte) (s : State) : (writeFrame bs s).rdata = s.rdata := rfl
@[simp] theorem writeFrame_turns (bs : List Byte) (s : State) : (writeFrame bs s).turns = s.turns := rfl
@[simp] theorem writeFrame_freeCount (bs : List Byte) (s : State) : (writeFrame bs s).freeCount = s.freeCount := rfl

/-! ### writePayload -/

@[simp] theorem writePayload_cfg (lo : Nat) (bs : List Byte) (s : State) : (writePayload lo bs s).cfg = s.cfg := rfl
@[simp] theorem writePayload_cmd (lo : Nat) (bs : List Byte) (s : State) : (writePayload lo bs s).cmd = s.cmd := rfl
@[simp] theorem writePayload_busy (lo : Nat) (bs : List Byte) (s : State) : (writePayload lo bs s).busy = s.busy := rfl
@[simp] theorem writePayload_done (lo : Nat) (bs : List Byte) (s : State) : (writePayload lo bs s).done = s.done := rfl
@[simp] theorem writePayload_valid (lo : Nat) (bs : List Byte) (s : State) : (writePayload lo bs s).valid = s.valid := rfl
@[simp] theorem writePayload_err (lo : Nat) (bs : List Byte) (s : State) : (writePayload lo bs s).err = s.err := rfl
@[simp] theorem writePayload_overrun (lo : Nat) (bs : List Byte) (s : State) : (writePayload lo bs s).overrun = s.overrun := rfl
@[simp] theorem writePayload_buserr (lo : Nat) (bs : List Byte) (s : State) : (writePayload lo bs s).buserr = s.buserr := rfl
@[simp] theorem writePayload_ie (lo : Nat) (bs : List Byte) (s : State) : (writePayload lo bs s).ie = s.ie := rfl
@[simp] theorem writePayload_flen (lo : Nat) (bs : List Byte) (s : State) : (writePayload lo bs s).flen = s.flen := rfl
@[simp] theorem writePayload_plen (lo : Nat) (bs : List Byte) (s : State) : (writePayload lo bs s).plen = s.plen := rfl
@[simp] theorem writePayload_devtype (lo : Nat) (bs : List Byte) (s : State) : (writePayload lo bs s).devtype = s.devtype := rfl
@[simp] theorem writePayload_tag (lo : Nat) (bs : List Byte) (s : State) : (writePayload lo bs s).tag = s.tag := rfl
@[simp] theorem writePayload_seq (lo : Nat) (bs : List Byte) (s : State) : (writePayload lo bs s).seq = s.seq := rfl
@[simp] theorem writePayload_macLo (lo : Nat) (bs : List Byte) (s : State) : (writePayload lo bs s).macLo = s.macLo := rfl
@[simp] theorem writePayload_macHi (lo : Nat) (bs : List Byte) (s : State) : (writePayload lo bs s).macHi = s.macHi := rfl
@[simp] theorem writePayload_devid (lo : Nat) (bs : List Byte) (s : State) : (writePayload lo bs s).devid = s.devid := rfl
@[simp] theorem writePayload_cksum (lo : Nat) (bs : List Byte) (s : State) : (writePayload lo bs s).cksum = s.cksum := rfl
@[simp] theorem writePayload_pcksum (lo : Nat) (bs : List Byte) (s : State) : (writePayload lo bs s).pcksum = s.pcksum := rfl
@[simp] theorem writePayload_key0 (lo : Nat) (bs : List Byte) (s : State) : (writePayload lo bs s).key0 = s.key0 := rfl
@[simp] theorem writePayload_key1 (lo : Nat) (bs : List Byte) (s : State) : (writePayload lo bs s).key1 = s.key1 := rfl
@[simp] theorem writePayload_key2 (lo : Nat) (bs : List Byte) (s : State) : (writePayload lo bs s).key2 = s.key2 := rfl
@[simp] theorem writePayload_key3 (lo : Nat) (bs : List Byte) (s : State) : (writePayload lo bs s).key3 = s.key3 := rfl
@[simp] theorem writePayload_rxDevtype (lo : Nat) (bs : List Byte) (s : State) : (writePayload lo bs s).rxDevtype = s.rxDevtype := rfl
@[simp] theorem writePayload_rxTag (lo : Nat) (bs : List Byte) (s : State) : (writePayload lo bs s).rxTag = s.rxTag := rfl
@[simp] theorem writePayload_rxSeq (lo : Nat) (bs : List Byte) (s : State) : (writePayload lo bs s).rxSeq = s.rxSeq := rfl
@[simp] theorem writePayload_rxMacLo (lo : Nat) (bs : List Byte) (s : State) : (writePayload lo bs s).rxMacLo = s.rxMacLo := rfl
@[simp] theorem writePayload_rxMacHi (lo : Nat) (bs : List Byte) (s : State) : (writePayload lo bs s).rxMacHi = s.rxMacHi := rfl
@[simp] theorem writePayload_rxDevid (lo : Nat) (bs : List Byte) (s : State) : (writePayload lo bs s).rxDevid = s.rxDevid := rfl
@[simp] theorem writePayload_rxErrcode (lo : Nat) (bs : List Byte) (s : State) : (writePayload lo bs s).rxErrcode = s.rxErrcode := rfl
@[simp] theorem writePayload_rxPcksum (lo : Nat) (bs : List Byte) (s : State) : (writePayload lo bs s).rxPcksum = s.rxPcksum := rfl
@[simp] theorem writePayload_rxFcksum (lo : Nat) (bs : List Byte) (s : State) : (writePayload lo bs s).rxFcksum = s.rxFcksum := rfl
@[simp] theorem writePayload_mem (lo : Nat) (bs : List Byte) (s : State) : (writePayload lo bs s).mem = s.mem.writeRange (pbufBase + lo) bs := rfl
@[simp] theorem writePayload_rst (lo : Nat) (bs : List Byte) (s : State) : (writePayload lo bs s).rst = s.rst := rfl
@[simp] theorem writePayload_rdata (lo : Nat) (bs : List Byte) (s : State) : (writePayload lo bs s).rdata = s.rdata := rfl
@[simp] theorem writePayload_turns (lo : Nat) (bs : List Byte) (s : State) : (writePayload lo bs s).turns = s.turns := rfl
@[simp] theorem writePayload_freeCount (lo : Nat) (bs : List Byte) (s : State) : (writePayload lo bs s).freeCount = s.freeCount := rfl

/-! ### setKey -/

@[simp] theorem setKey_cfg (bs : List Byte) (s : State) : (setKey bs s).cfg = s.cfg := rfl
@[simp] theorem setKey_cmd (bs : List Byte) (s : State) : (setKey bs s).cmd = s.cmd := rfl
@[simp] theorem setKey_busy (bs : List Byte) (s : State) : (setKey bs s).busy = s.busy := rfl
@[simp] theorem setKey_done (bs : List Byte) (s : State) : (setKey bs s).done = s.done := rfl
@[simp] theorem setKey_valid (bs : List Byte) (s : State) : (setKey bs s).valid = s.valid := rfl
@[simp] theorem setKey_err (bs : List Byte) (s : State) : (setKey bs s).err = s.err := rfl
@[simp] theorem setKey_overrun (bs : List Byte) (s : State) : (setKey bs s).overrun = s.overrun := rfl
@[simp] theorem setKey_buserr (bs : List Byte) (s : State) : (setKey bs s).buserr = s.buserr := rfl
@[simp] theorem setKey_ie (bs : List Byte) (s : State) : (setKey bs s).ie = s.ie := rfl
@[simp] theorem setKey_flen (bs : List Byte) (s : State) : (setKey bs s).flen = s.flen := rfl
@[simp] theorem setKey_plen (bs : List Byte) (s : State) : (setKey bs s).plen = s.plen := rfl
@[simp] theorem setKey_devtype (bs : List Byte) (s : State) : (setKey bs s).devtype = s.devtype := rfl
@[simp] theorem setKey_tag (bs : List Byte) (s : State) : (setKey bs s).tag = s.tag := rfl
@[simp] theorem setKey_seq (bs : List Byte) (s : State) : (setKey bs s).seq = s.seq := rfl
@[simp] theorem setKey_macLo (bs : List Byte) (s : State) : (setKey bs s).macLo = s.macLo := rfl
@[simp] theorem setKey_macHi (bs : List Byte) (s : State) : (setKey bs s).macHi = s.macHi := rfl
@[simp] theorem setKey_devid (bs : List Byte) (s : State) : (setKey bs s).devid = s.devid := rfl
@[simp] theorem setKey_cksum (bs : List Byte) (s : State) : (setKey bs s).cksum = s.cksum := rfl
@[simp] theorem setKey_pcksum (bs : List Byte) (s : State) : (setKey bs s).pcksum = s.pcksum := rfl
@[simp] theorem setKey_key0 (bs : List Byte) (s : State) : (setKey bs s).key0 = wordOf bs 0 := rfl
@[simp] theorem setKey_key1 (bs : List Byte) (s : State) : (setKey bs s).key1 = wordOf bs 1 := rfl
@[simp] theorem setKey_key2 (bs : List Byte) (s : State) : (setKey bs s).key2 = wordOf bs 2 := rfl
@[simp] theorem setKey_key3 (bs : List Byte) (s : State) : (setKey bs s).key3 = wordOf bs 3 := rfl
@[simp] theorem setKey_rxDevtype (bs : List Byte) (s : State) : (setKey bs s).rxDevtype = s.rxDevtype := rfl
@[simp] theorem setKey_rxTag (bs : List Byte) (s : State) : (setKey bs s).rxTag = s.rxTag := rfl
@[simp] theorem setKey_rxSeq (bs : List Byte) (s : State) : (setKey bs s).rxSeq = s.rxSeq := rfl
@[simp] theorem setKey_rxMacLo (bs : List Byte) (s : State) : (setKey bs s).rxMacLo = s.rxMacLo := rfl
@[simp] theorem setKey_rxMacHi (bs : List Byte) (s : State) : (setKey bs s).rxMacHi = s.rxMacHi := rfl
@[simp] theorem setKey_rxDevid (bs : List Byte) (s : State) : (setKey bs s).rxDevid = s.rxDevid := rfl
@[simp] theorem setKey_rxErrcode (bs : List Byte) (s : State) : (setKey bs s).rxErrcode = s.rxErrcode := rfl
@[simp] theorem setKey_rxPcksum (bs : List Byte) (s : State) : (setKey bs s).rxPcksum = s.rxPcksum := rfl
@[simp] theorem setKey_rxFcksum (bs : List Byte) (s : State) : (setKey bs s).rxFcksum = s.rxFcksum := rfl
@[simp] theorem setKey_mem (bs : List Byte) (s : State) : (setKey bs s).mem = s.mem := rfl
@[simp] theorem setKey_rst (bs : List Byte) (s : State) : (setKey bs s).rst = s.rst := rfl
@[simp] theorem setKey_rdata (bs : List Byte) (s : State) : (setKey bs s).rdata = s.rdata := rfl
@[simp] theorem setKey_turns (bs : List Byte) (s : State) : (setKey bs s).turns = s.turns := rfl
@[simp] theorem setKey_freeCount (bs : List Byte) (s : State) : (setKey bs s).freeCount = s.freeCount := rfl

/-! ### clearStatus -/

@[simp] theorem clearStatus_cfg (d : Word) (s : State) : (clearStatus d s).cfg = s.cfg := rfl
@[simp] theorem clearStatus_cmd (d : Word) (s : State) : (clearStatus d s).cmd = s.cmd := rfl
@[simp] theorem clearStatus_busy (d : Word) (s : State) : (clearStatus d s).busy = s.busy := rfl
@[simp] theorem clearStatus_done (d : Word) (s : State) : (clearStatus d s).done = (s.done && !d.getLsbD 1) := rfl
@[simp] theorem clearStatus_valid (d : Word) (s : State) : (clearStatus d s).valid = s.valid := rfl
@[simp] theorem clearStatus_err (d : Word) (s : State) : (clearStatus d s).err = s.err := rfl
@[simp] theorem clearStatus_overrun (d : Word) (s : State) : (clearStatus d s).overrun = (s.overrun && !d.getLsbD 8) := rfl
@[simp] theorem clearStatus_buserr (d : Word) (s : State) : (clearStatus d s).buserr = (s.buserr && !d.getLsbD 9) := rfl
@[simp] theorem clearStatus_ie (d : Word) (s : State) : (clearStatus d s).ie = s.ie := rfl
@[simp] theorem clearStatus_flen (d : Word) (s : State) : (clearStatus d s).flen = s.flen := rfl
@[simp] theorem clearStatus_plen (d : Word) (s : State) : (clearStatus d s).plen = s.plen := rfl
@[simp] theorem clearStatus_devtype (d : Word) (s : State) : (clearStatus d s).devtype = s.devtype := rfl
@[simp] theorem clearStatus_tag (d : Word) (s : State) : (clearStatus d s).tag = s.tag := rfl
@[simp] theorem clearStatus_seq (d : Word) (s : State) : (clearStatus d s).seq = s.seq := rfl
@[simp] theorem clearStatus_macLo (d : Word) (s : State) : (clearStatus d s).macLo = s.macLo := rfl
@[simp] theorem clearStatus_macHi (d : Word) (s : State) : (clearStatus d s).macHi = s.macHi := rfl
@[simp] theorem clearStatus_devid (d : Word) (s : State) : (clearStatus d s).devid = s.devid := rfl
@[simp] theorem clearStatus_cksum (d : Word) (s : State) : (clearStatus d s).cksum = s.cksum := rfl
@[simp] theorem clearStatus_pcksum (d : Word) (s : State) : (clearStatus d s).pcksum = s.pcksum := rfl
@[simp] theorem clearStatus_key0 (d : Word) (s : State) : (clearStatus d s).key0 = s.key0 := rfl
@[simp] theorem clearStatus_key1 (d : Word) (s : State) : (clearStatus d s).key1 = s.key1 := rfl
@[simp] theorem clearStatus_key2 (d : Word) (s : State) : (clearStatus d s).key2 = s.key2 := rfl
@[simp] theorem clearStatus_key3 (d : Word) (s : State) : (clearStatus d s).key3 = s.key3 := rfl
@[simp] theorem clearStatus_rxDevtype (d : Word) (s : State) : (clearStatus d s).rxDevtype = s.rxDevtype := rfl
@[simp] theorem clearStatus_rxTag (d : Word) (s : State) : (clearStatus d s).rxTag = s.rxTag := rfl
@[simp] theorem clearStatus_rxSeq (d : Word) (s : State) : (clearStatus d s).rxSeq = s.rxSeq := rfl
@[simp] theorem clearStatus_rxMacLo (d : Word) (s : State) : (clearStatus d s).rxMacLo = s.rxMacLo := rfl
@[simp] theorem clearStatus_rxMacHi (d : Word) (s : State) : (clearStatus d s).rxMacHi = s.rxMacHi := rfl
@[simp] theorem clearStatus_rxDevid (d : Word) (s : State) : (clearStatus d s).rxDevid = s.rxDevid := rfl
@[simp] theorem clearStatus_rxErrcode (d : Word) (s : State) : (clearStatus d s).rxErrcode = s.rxErrcode := rfl
@[simp] theorem clearStatus_rxPcksum (d : Word) (s : State) : (clearStatus d s).rxPcksum = s.rxPcksum := rfl
@[simp] theorem clearStatus_rxFcksum (d : Word) (s : State) : (clearStatus d s).rxFcksum = s.rxFcksum := rfl
@[simp] theorem clearStatus_mem (d : Word) (s : State) : (clearStatus d s).mem = s.mem := rfl
@[simp] theorem clearStatus_rst (d : Word) (s : State) : (clearStatus d s).rst = s.rst := rfl
@[simp] theorem clearStatus_rdata (d : Word) (s : State) : (clearStatus d s).rdata = s.rdata := rfl
@[simp] theorem clearStatus_turns (d : Word) (s : State) : (clearStatus d s).turns = s.turns := rfl
@[simp] theorem clearStatus_freeCount (d : Word) (s : State) : (clearStatus d s).freeCount = s.freeCount := rfl

/-! ### loadRx -/

@[simp] theorem loadRx_cfg (h : List Byte) (s : State) : (loadRx h s).cfg = s.cfg := rfl
@[simp] theorem loadRx_cmd (h : List Byte) (s : State) : (loadRx h s).cmd = s.cmd := rfl
@[simp] theorem loadRx_busy (h : List Byte) (s : State) : (loadRx h s).busy = s.busy := rfl
@[simp] theorem loadRx_done (h : List Byte) (s : State) : (loadRx h s).done = s.done := rfl
@[simp] theorem loadRx_valid (h : List Byte) (s : State) : (loadRx h s).valid = s.valid := rfl
@[simp] theorem loadRx_err (h : List Byte) (s : State) : (loadRx h s).err = s.err := rfl
@[simp] theorem loadRx_overrun (h : List Byte) (s : State) : (loadRx h s).overrun = s.overrun := rfl
@[simp] theorem loadRx_buserr (h : List Byte) (s : State) : (loadRx h s).buserr = s.buserr := rfl
@[simp] theorem loadRx_ie (h : List Byte) (s : State) : (loadRx h s).ie = s.ie := rfl
@[simp] theorem loadRx_flen (h : List Byte) (s : State) : (loadRx h s).flen = s.flen := rfl
@[simp] theorem loadRx_plen (h : List Byte) (s : State) : (loadRx h s).plen = s.plen := rfl
@[simp] theorem loadRx_devtype (h : List Byte) (s : State) : (loadRx h s).devtype = s.devtype := rfl
@[simp] theorem loadRx_tag (h : List Byte) (s : State) : (loadRx h s).tag = s.tag := rfl
@[simp] theorem loadRx_seq (h : List Byte) (s : State) : (loadRx h s).seq = s.seq := rfl
@[simp] theorem loadRx_macLo (h : List Byte) (s : State) : (loadRx h s).macLo = s.macLo := rfl
@[simp] theorem loadRx_macHi (h : List Byte) (s : State) : (loadRx h s).macHi = s.macHi := rfl
@[simp] theorem loadRx_devid (h : List Byte) (s : State) : (loadRx h s).devid = s.devid := rfl
@[simp] theorem loadRx_cksum (h : List Byte) (s : State) : (loadRx h s).cksum = s.cksum := rfl
@[simp] theorem loadRx_pcksum (h : List Byte) (s : State) : (loadRx h s).pcksum = s.pcksum := rfl
@[simp] theorem loadRx_key0 (h : List Byte) (s : State) : (loadRx h s).key0 = s.key0 := rfl
@[simp] theorem loadRx_key1 (h : List Byte) (s : State) : (loadRx h s).key1 = s.key1 := rfl
@[simp] theorem loadRx_key2 (h : List Byte) (s : State) : (loadRx h s).key2 = s.key2 := rfl
@[simp] theorem loadRx_key3 (h : List Byte) (s : State) : (loadRx h s).key3 = s.key3 := rfl
@[simp] theorem loadRx_rxDevtype (h : List Byte) (s : State) : (loadRx h s).rxDevtype = le16 (slice h 0x04 0x06) := rfl
@[simp] theorem loadRx_rxTag (h : List Byte) (s : State) : (loadRx h s).rxTag = le16 (slice h 0x06 0x08) := rfl
@[simp] theorem loadRx_rxSeq (h : List Byte) (s : State) : (loadRx h s).rxSeq = le16 (slice h 0x08 0x0a) := rfl
@[simp] theorem loadRx_rxMacLo (h : List Byte) (s : State) : (loadRx h s).rxMacLo = le32 (slice h 0x0a 0x0e) := rfl
@[simp] theorem loadRx_rxMacHi (h : List Byte) (s : State) : (loadRx h s).rxMacHi = le16 (slice h 0x0e 0x10) := rfl
@[simp] theorem loadRx_rxDevid (h : List Byte) (s : State) : (loadRx h s).rxDevid = le32 (slice h 0x10 0x14) := rfl
@[simp] theorem loadRx_rxErrcode (h : List Byte) (s : State) : (loadRx h s).rxErrcode = le16 (slice h 0x02 0x04) := rfl
@[simp] theorem loadRx_rxPcksum (h : List Byte) (s : State) : (loadRx h s).rxPcksum = le16 (slice h 0x14 0x16) := rfl
@[simp] theorem loadRx_rxFcksum (h : List Byte) (s : State) : (loadRx h s).rxFcksum = le16 (slice h 0x00 0x02) := rfl
@[simp] theorem loadRx_mem (h : List Byte) (s : State) : (loadRx h s).mem = s.mem := rfl
@[simp] theorem loadRx_rst (h : List Byte) (s : State) : (loadRx h s).rst = s.rst := rfl
@[simp] theorem loadRx_rdata (h : List Byte) (s : State) : (loadRx h s).rdata = s.rdata := rfl
@[simp] theorem loadRx_turns (h : List Byte) (s : State) : (loadRx h s).turns = s.turns := rfl
@[simp] theorem loadRx_freeCount (h : List Byte) (s : State) : (loadRx h s).freeCount = s.freeCount := rfl

/-! ### resetRegisters -/

@[simp] theorem resetRegisters_cfg (s : State) : (resetRegisters s).cfg = s.cfg := rfl
@[simp] theorem resetRegisters_cmd (s : State) : (resetRegisters s).cmd = 0 := rfl
@[simp] theorem resetRegisters_busy (s : State) : (resetRegisters s).busy = false := rfl
@[simp] theorem resetRegisters_done (s : State) : (resetRegisters s).done = false := rfl
@[simp] theorem resetRegisters_valid (s : State) : (resetRegisters s).valid = false := rfl
@[simp] theorem resetRegisters_err (s : State) : (resetRegisters s).err = .noError := rfl
@[simp] theorem resetRegisters_overrun (s : State) : (resetRegisters s).overrun = false := rfl
@[simp] theorem resetRegisters_buserr (s : State) : (resetRegisters s).buserr = false := rfl
@[simp] theorem resetRegisters_ie (s : State) : (resetRegisters s).ie = false := rfl
@[simp] theorem resetRegisters_flen (s : State) : (resetRegisters s).flen = 0 := rfl
@[simp] theorem resetRegisters_plen (s : State) : (resetRegisters s).plen = 0 := rfl
@[simp] theorem resetRegisters_devtype (s : State) : (resetRegisters s).devtype = 0 := rfl
@[simp] theorem resetRegisters_tag (s : State) : (resetRegisters s).tag = 0 := rfl
@[simp] theorem resetRegisters_seq (s : State) : (resetRegisters s).seq = s.cfg.seqInit := rfl
@[simp] theorem resetRegisters_macLo (s : State) : (resetRegisters s).macLo = 0 := rfl
@[simp] theorem resetRegisters_macHi (s : State) : (resetRegisters s).macHi = 0 := rfl
@[simp] theorem resetRegisters_devid (s : State) : (resetRegisters s).devid = 0 := rfl
@[simp] theorem resetRegisters_cksum (s : State) : (resetRegisters s).cksum = 0 := rfl
@[simp] theorem resetRegisters_pcksum (s : State) : (resetRegisters s).pcksum = 0 := rfl
@[simp] theorem resetRegisters_key0 (s : State) : (resetRegisters s).key0 = wordOf s.cfg.defaultKey.toList 0 := rfl
@[simp] theorem resetRegisters_key1 (s : State) : (resetRegisters s).key1 = wordOf s.cfg.defaultKey.toList 1 := rfl
@[simp] theorem resetRegisters_key2 (s : State) : (resetRegisters s).key2 = wordOf s.cfg.defaultKey.toList 2 := rfl
@[simp] theorem resetRegisters_key3 (s : State) : (resetRegisters s).key3 = wordOf s.cfg.defaultKey.toList 3 := rfl
@[simp] theorem resetRegisters_rxDevtype (s : State) : (resetRegisters s).rxDevtype = 0 := rfl
@[simp] theorem resetRegisters_rxTag (s : State) : (resetRegisters s).rxTag = 0 := rfl
@[simp] theorem resetRegisters_rxSeq (s : State) : (resetRegisters s).rxSeq = 0 := rfl
@[simp] theorem resetRegisters_rxMacLo (s : State) : (resetRegisters s).rxMacLo = 0 := rfl
@[simp] theorem resetRegisters_rxMacHi (s : State) : (resetRegisters s).rxMacHi = 0 := rfl
@[simp] theorem resetRegisters_rxDevid (s : State) : (resetRegisters s).rxDevid = 0 := rfl
@[simp] theorem resetRegisters_rxErrcode (s : State) : (resetRegisters s).rxErrcode = 0 := rfl
@[simp] theorem resetRegisters_rxPcksum (s : State) : (resetRegisters s).rxPcksum = 0 := rfl
@[simp] theorem resetRegisters_rxFcksum (s : State) : (resetRegisters s).rxFcksum = 0 := rfl
@[simp] theorem resetRegisters_mem (s : State) : (resetRegisters s).mem = (if s.busy then [] else s.mem) := rfl
@[simp] theorem resetRegisters_rst (s : State) : (resetRegisters s).rst = s.rst := rfl
@[simp] theorem resetRegisters_rdata (s : State) : (resetRegisters s).rdata = s.rdata := rfl
@[simp] theorem resetRegisters_turns (s : State) : (resetRegisters s).turns = s.turns := rfl
@[simp] theorem resetRegisters_freeCount (s : State) : (resetRegisters s).freeCount = s.freeCount := rfl

end Sys2Proof.Machine
end

