-- ==== Sys2Proof/Laws/Ops.lean ====
section
/-! SUPPORT. For each shared operation and each command, one lemma that says everything it can do; provers cite these and unfold
nothing. -/

namespace Sys2Proof.Machine

/-- The result of a command that reads an unspecified byte of `[a, a+n)` (R262). -/
def OperandFault (s : State) (a n : Nat) (r : Result) : Prop :=
  ∃ x, s.mem.read x = none ∧ a ≤ x ∧ x < a + n ∧ r = .fault (.commandReadsUnspecified x)

theorem OperandFault.not_next {s : State} {a n : Nat} {t : State} (h : OperandFault s a n (.next t)) : False := by
  obtain ⟨x, _, _, _, h⟩ := h
  cases h

/-- An operand read gives the bytes the buffer holds. -/
theorem readOperand_of_holds (s : State) (a n : Nat) (k : List Byte → Result) (bs : List Byte) (hl : bs.length = n)
    (h : HoldsBytes s.mem a bs) : readOperand s a n k = k bs := by
  subst hl
  simp only [readOperand, Memory.readRange_of_holds _ _ _ h]

/-- All an operand read can do. -/
theorem readOperand_cases (s : State) (a n : Nat) (k : List Byte → Result) :
    (∃ bs, bs.length = n ∧ HoldsBytes s.mem a bs ∧ readOperand s a n k = k bs) ∨
      OperandFault s a n (readOperand s a n k) := by
  simp only [readOperand]
  cases h : s.mem.readRange a n with
  | ok bs =>
    obtain ⟨h1, h2⟩ := Memory.readRange_ok _ _ _ _ h
    exact .inl ⟨bs, h1, h2, rfl⟩
  | error x =>
    obtain ⟨h1, h2, h3⟩ := Memory.readRange_error _ _ _ _ h
    exact .inr ⟨x, h1, h2, h3, rfl⟩

@[simp] theorem raiseError_eq (code : ErrCode) (s : State) : raiseError code s = .next (complete code s) := rfl

@[simp] theorem finish_eq (s : State) : finish s = .next (complete .noError s) := rfl

/-! ### The commands -/

theorem execNop_eq (s : State) : execNop s = .next (complete .noError s) := rfl

theorem execKeyrst_eq (s : State) :
    execKeyrst s = .next (complete .noError { setKey s.cfg.defaultKey.toList s with devid := 0 }) := rfl

/-- All CSUMF can do (R124). -/
theorem execCsumf_cases (s : State) :
    (s.cfg.fbufBytes < s.flen.toNat ∧ execCsumf s = .next (complete .length s)) ∨
    (s.flen.toNat ≤ s.cfg.fbufBytes ∧
      ((∃ f, f.length = s.flen.toNat ∧ HoldsBytes s.mem fbufBase f ∧
          execCsumf s = .next (complete .noError { s with cksum := csum f })) ∨
        OperandFault s fbufBase s.flen.toNat (execCsumf s))) := by
  by_cases h : s.flen.toNat > s.cfg.fbufBytes
  · exact .inl ⟨h, if_pos h⟩
  · have e : execCsumf s = readOperand s fbufBase s.flen.toNat _ := if_neg h
    rw [e]
    exact .inr ⟨by omega, readOperand_cases s fbufBase _ _⟩

/-- All CSUMP can do (R127). -/
theorem execCsump_cases (s : State) :
    (s.cfg.pbufBytes < s.plen.toNat ∧ execCsump s = .next (complete .length s)) ∨
    (s.plen.toNat ≤ s.cfg.pbufBytes ∧
      ((∃ p, p.length = s.plen.toNat ∧ HoldsBytes s.mem pbufBase p ∧
          execCsump s = .next (complete .noError { s with cksum := csum p })) ∨
        OperandFault s pbufBase s.plen.toNat (execCsump s))) := by
  by_cases h : s.plen.toNat > s.cfg.pbufBytes
  · exact .inl ⟨h, if_pos h⟩
  · have e : execCsump s = readOperand s pbufBase s.plen.toNat _ := if_neg h
    rw [e]
    exact .inr ⟨by omega, readOperand_cases s pbufBase _ _⟩

/-- All PAD can do (R184). -/
theorem execPad_cases (s : State) :
    ((s.cfg.pbufBytes < s.plen.toNat ∨ s.cfg.pbufBytes < paddedLength s.plen.toNat) ∧
      execPad s = .next (complete .length s)) ∨
    (s.plen.toNat ≤ s.cfg.pbufBytes ∧ paddedLength s.plen.toNat ≤ s.cfg.pbufBytes ∧
      execPad s = .next (complete .noError
        { writePayload s.plen.toNat (zeros (paddedLength s.plen.toNat - s.plen.toNat)) s with
          plen := BitVec.ofNat 16 (paddedLength s.plen.toNat) })) := by
  by_cases h : s.plen.toNat > s.cfg.pbufBytes
  · exact .inl ⟨.inl h, if_pos h⟩
  · by_cases h2 : paddedLength s.plen.toNat > s.cfg.pbufBytes
    · exact .inl ⟨.inr h2, (if_neg h).trans (if_pos h2)⟩
    · exact .inr ⟨by omega, by omega, (if_neg h).trans (if_neg h2)⟩

/-- The LENGTH condition of ENC and DEC as a proposition (R237). -/
theorem cipherLengthBad_iff (s : State) :
    cipherLengthBad s = true ↔ s.cfg.pbufBytes < s.plen.toNat ∨ s.plen.toNat % 16 ≠ 0 := by
  simp [cipherLengthBad, payloadLength]

/-- All ENC can do (R188). -/
theorem execEnc_cases (s : State) :
    ((s.cfg.pbufBytes < s.plen.toNat ∨ s.plen.toNat % 16 ≠ 0) ∧ execEnc s = .next (complete .length s)) ∨
    (s.plen.toNat ≤ s.cfg.pbufBytes ∧ s.plen.toNat % 16 = 0 ∧
      ((∃ p, p.length = s.plen.toNat ∧ HoldsBytes s.mem pbufBase p ∧
          execEnc s = .next (complete .noError (writePayload 0 (cbcE (keyBytes s) (ivBytes s) p) s))) ∨
        OperandFault s pbufBase s.plen.toNat (execEnc s))) := by
  by_cases h : cipherLengthBad s = true
  · exact .inl ⟨(cipherLengthBad_iff s).mp h, if_pos h⟩
  · have e : execEnc s = readOperand s pbufBase s.plen.toNat _ := if_neg h
    rw [cipherLengthBad_iff] at h
    rw [e]
    exact .inr ⟨by omega, by omega, readOperand_cases s pbufBase _ _⟩

/-- All DEC can do with its plaintext (R192, R194, R195). -/
theorem storeDecrypted_cases (u : Bool) (p : List Byte) (s : State) :
    ((u = false ∨ s.plen.toNat = 0) ∧ storeDecrypted u p s = .next (complete .noError (writePayload 0 p s))) ∨
    (u = true ∧ 0 < s.plen.toNat ∧ (byteAt p (s.plen.toNat - 1)).toNat ≤ s.plen.toNat ∧
      storeDecrypted u p s = .next (complete .noError { writePayload 0 p s with
        plen := BitVec.ofNat 16 (s.plen.toNat - (byteAt p (s.plen.toNat - 1)).toNat) })) ∨
    (u = true ∧ 0 < s.plen.toNat ∧ s.plen.toNat < (byteAt p (s.plen.toNat - 1)).toNat ∧
      storeDecrypted u p s = .next (complete .unpad s)) := by
  by_cases h : (u && decide (s.plen.toNat > 0)) = true
  · obtain ⟨hu, hn⟩ : u = true ∧ s.plen.toNat > 0 := by simpa using h
    by_cases h2 : (byteAt p (s.plen.toNat - 1)).toNat > s.plen.toNat
    · exact .inr (.inr ⟨hu, hn, h2, (if_pos h).trans (if_pos h2)⟩)
    · exact .inr (.inl ⟨hu, hn, by omega, (if_pos h).trans (if_neg h2)⟩)
  · refine .inl ⟨?_, if_neg h⟩
    cases u
    · exact .inl rfl
    · exact .inr (by simpa using h)

/-- All DEC can do (R192). -/
theorem execDec_cases (u : Bool) (s : State) :
    ((s.cfg.pbufBytes < s.plen.toNat ∨ s.plen.toNat % 16 ≠ 0) ∧ execDec u s = .next (complete .length s)) ∨
    (s.plen.toNat ≤ s.cfg.pbufBytes ∧ s.plen.toNat % 16 = 0 ∧
      ((∃ c, c.length = s.plen.toNat ∧ HoldsBytes s.mem pbufBase c ∧
          execDec u s = storeDecrypted u (cbcD (keyBytes s) (ivBytes s) c) s) ∨
        OperandFault s pbufBase s.plen.toNat (execDec u s))) := by
  by_cases h : cipherLengthBad s = true
  · exact .inl ⟨(cipherLengthBad_iff s).mp h, if_pos h⟩
  · have e : execDec u s = readOperand s pbufBase s.plen.toNat _ := if_neg h
    rw [cipherLengthBad_iff] at h
    rw [e]
    exact .inr ⟨by omega, by omega, readOperand_cases s pbufBase _ _⟩

/-- The state a BUILD of the payload `p` leaves (R130). -/
def buildState (a : Bool) (p : List Byte) (s : State) : State :=
  { writeFrame (buildFrame a p s) s with
    flen := BitVec.ofNat 16 (hdrLen + buildPayloadLength s.plen.toNat)
    cksum := buildChecksum a p s
    pcksum := buildPayloadChecksum p
    seq := buildSeq a s }

/-- All BUILD can do (R130). -/
theorem execBuild_cases (a : Bool) (s : State) :
    ((s.cfg.pbufBytes < s.plen.toNat ∨ s.cfg.fbufBytes < hdrLen + buildPayloadLength s.plen.toNat) ∧
      execBuild a s = .next (complete .length s)) ∨
    (s.plen.toNat ≤ s.cfg.pbufBytes ∧ hdrLen + buildPayloadLength s.plen.toNat ≤ s.cfg.fbufBytes ∧
      ((∃ p, p.length = s.plen.toNat ∧ HoldsBytes s.mem pbufBase p ∧
          execBuild a s = .next (complete .noError (buildState a p s))) ∨
        OperandFault s pbufBase s.plen.toNat (execBuild a s))) := by
  by_cases h : s.plen.toNat > s.cfg.pbufBytes
  · exact .inl ⟨.inl h, if_pos h⟩
  · by_cases h2 : hdrLen + buildPayloadLength s.plen.toNat > s.cfg.fbufBytes
    · exact .inl ⟨.inr h2, (if_neg h).trans (if_pos h2)⟩
    · have e : execBuild a s = readOperand s pbufBase s.plen.toNat _ := (if_neg h).trans (if_neg h2)
      rw [e]
      exact .inr ⟨by omega, by omega, readOperand_cases s pbufBase _ _⟩

/-- All VALIDATE can do (R140). -/
theorem execValidate_cases (s : State) :
    ((s.flen.toNat < 0x38 ∨ s.cfg.fbufBytes < s.flen.toNat) ∧
      execValidate s = .next (complete .length { s with valid := false })) ∨
    (0x38 ≤ s.flen.toNat ∧ s.flen.toNat ≤ s.cfg.fbufBytes ∧
      ((∃ f, f.length = s.flen.toNat ∧ HoldsBytes s.mem fbufBase f ∧
          execValidate s = .next (complete .noError
            { s with valid := csumZ f == le16 (slice f 0x20 0x22), cksum := csumZ f })) ∨
        OperandFault s fbufBase s.flen.toNat (execValidate s))) := by
  by_cases h : (decide (s.flen.toNat < hdrLen) || decide (s.flen.toNat > s.cfg.fbufBytes)) = true
  · exact .inl ⟨by simp only [Bool.or_eq_true, decide_eq_true_eq] at h; exact h, if_pos h⟩
  · have e : execValidate s = readOperand s fbufBase s.flen.toNat _ := if_neg h
    simp only [Bool.or_eq_true, decide_eq_true_eq] at h
    simp only [hdrLen] at h
    rw [e]
    exact .inr ⟨by omega, by omega, readOperand_cases s fbufBase _ _⟩

/-- All PARSE can do (R146). -/
theorem execParse_cases (s : State) :
    ((s.flen.toNat < 0x38 ∨ s.cfg.fbufBytes < s.flen.toNat ∨ s.cfg.pbufBytes < s.flen.toNat - 0x38) ∧
      execParse s = .next (complete .length s)) ∨
    (0x38 ≤ s.flen.toNat ∧ s.flen.toNat ≤ s.cfg.fbufBytes ∧ s.flen.toNat - 0x38 ≤ s.cfg.pbufBytes ∧
      ((∃ h p, h.length = 0x16 ∧ HoldsBytes s.mem (fbufBase + 0x20) h ∧ p.length = s.flen.toNat - 0x38 ∧
          HoldsBytes s.mem (fbufBase + 0x38) p ∧
          execParse s = .next (complete .noError
            { writePayload 0 p (loadRx h s) with plen := BitVec.ofNat 16 (s.flen.toNat - 0x38) })) ∨
        OperandFault s (fbufBase + 0x20) 0x16 (execParse s) ∨
        OperandFault s (fbufBase + 0x38) (s.flen.toNat - 0x38) (execParse s))) := by
  by_cases h : (decide (s.flen.toNat < hdrLen) || decide (s.flen.toNat > s.cfg.fbufBytes) ||
      decide (s.flen.toNat - hdrLen > s.cfg.pbufBytes)) = true
  · refine .inl ⟨?_, if_pos h⟩
    simp only [Bool.or_eq_true, decide_eq_true_eq] at h
    simp only [hdrLen] at h
    omega
  · have e : execParse s = readOperand s (fbufBase + 0x20) 0x16 fun h =>
        readOperand s (fbufBase + 0x38) (s.flen.toNat - 0x38) _ := if_neg h
    simp only [Bool.or_eq_true, decide_eq_true_eq] at h
    simp only [hdrLen] at h
    refine .inr ⟨by omega, by omega, by omega, ?_⟩
    rw [e]
    rcases readOperand_cases s (fbufBase + 0x20) 0x16 _ with ⟨hd, h1, h2, h3⟩ | h3
    · rw [h3]
      rcases readOperand_cases s (fbufBase + 0x38) (s.flen.toNat - 0x38) _ with ⟨p, h4, h5, h6⟩ | h6
      · rw [h6]
        exact .inl ⟨hd, p, h1, h2, h4, h5, rfl⟩
      · exact .inr (.inr h6)
    · exact .inr (.inl h3)

/-- All AUTHKEY can do (R213). -/
theorem execAuthkey_cases (s : State) :
    ((s.plen.toNat < 20 ∨ s.cfg.pbufBytes < s.plen.toNat) ∧ execAuthkey s = .next (complete .length s)) ∨
    (20 ≤ s.plen.toNat ∧ s.plen.toNat ≤ s.cfg.pbufBytes ∧
      ((∃ p, p.length = 20 ∧ HoldsBytes s.mem pbufBase p ∧
          execAuthkey s = .next (complete .noError { setKey (slice p 4 20) s with devid := le32 (slice p 0 4) })) ∨
        OperandFault s pbufBase 20 (execAuthkey s))) := by
  by_cases h : (decide (s.plen.toNat < 20) || decide (s.plen.toNat > s.cfg.pbufBytes)) = true
  · exact .inl ⟨by simpa using h, if_pos h⟩
  · have e : execAuthkey s = readOperand s pbufBase 20 _ := if_neg h
    simp only [Bool.or_eq_true, decide_eq_true_eq] at h
    rw [e]
    exact .inr ⟨by omega, by omega, readOperand_cases s pbufBase _ _⟩

/-! ### The host bus -/

theorem inFbuf_iff (c : Config) (a : Nat) : inFbuf c a = true ↔ 0x1000 ≤ a ∧ a < 0x1000 + c.fbufBytes := by
  simp only [inFbuf, Bool.and_eq_true, decide_eq_true_eq]
  rfl

theorem inPbuf_iff (c : Config) (a : Nat) : inPbuf c a = true ↔ 0x2000 ≤ a ∧ a < 0x2000 + c.pbufBytes := by
  simp only [inPbuf, Bool.and_eq_true, decide_eq_true_eq]
  rfl

/-- The address map takes an access of this size at this address (R63, R64, R65). -/
def Taken (c : Config) (a : BusAddr) (n : Size) : Prop :=
  a.toNat % n.bytes = 0 ∧ ((a.toNat < 0x100 ∧ n = .word) ∨ inFbuf c a.toNat = true ∨ inPbuf c a.toNat = true)

theorem region_registers (c : Config) (a : BusAddr) (h : a.toNat < 0x100) : region c a = .registers a.toNat := by
  simp [region, h]

theorem region_buffer (c : Config) (a : BusAddr) (h : inFbuf c a.toNat = true ∨ inPbuf c a.toNat = true) :
    region c a = .buffer := by
  have h1 : ¬ a.toNat < 0x100 := by
    simp only [inFbuf_iff, inPbuf_iff] at h
    omega
  simp [region, h1, h]

theorem misaligned_eq (a : BusAddr) (n : Size) : misaligned a n = true ↔ a.toNat % n.bytes ≠ 0 := by
  simp [misaligned]

/-- All a host read can do (R64 to R67, R281). -/
theorem hostRead_cases (a : BusAddr) (n : Size) (s : State) :
    (¬ Taken s.cfg a n ∧ hostRead a n s = .next (returnData 0 (busError s))) ∨
    (Taken s.cfg a n ∧ a.toNat < 0x100 ∧ n = .word ∧ hostRead a n s = .next (readWindow a.toNat s)) ∨
    (Taken s.cfg a n ∧ (inFbuf s.cfg a.toNat = true ∨ inPbuf s.cfg a.toNat = true) ∧
      ((s.busy = true ∧ hostRead a n s = .next (returnFree (8 * n.bytes) s)) ∨
        (s.busy = false ∧ ∃ bs, bs.length = n.bytes ∧ HoldsBytes s.mem a.toNat bs ∧
          hostRead a n s = .next (returnData (busValue bs) s)) ∨
        (s.busy = false ∧ ∃ x, s.mem.read x = none ∧ a.toNat ≤ x ∧ x < a.toNat + n.bytes ∧
          hostRead a n s = .fault (.hostReadsUnspecified x)))) := by
  by_cases hm : misaligned a n = true
  · left
    refine ⟨fun h => (misaligned_eq a n).mp hm h.1, by simp [hostRead, hm]⟩
  have hm' : a.toNat % n.bytes = 0 := by
    by_contra h
    exact hm ((misaligned_eq a n).mpr h)
  by_cases hr : a.toNat < 0x100
  · by_cases hn : n = .word
    · exact .inr (.inl ⟨⟨hm', .inl ⟨hr, hn⟩⟩, hr, hn, by subst hn; simp [hostRead, hm, region_registers _ _ hr]⟩)
    · refine .inl ⟨?_, by simp [hostRead, hm, region_registers _ _ hr, hn]⟩
      rintro ⟨-, h | h⟩
      · exact hn h.2
      · simp only [inFbuf_iff, inPbuf_iff] at h
        omega
  · by_cases hb : inFbuf s.cfg a.toNat = true ∨ inPbuf s.cfg a.toNat = true
    · refine .inr (.inr ⟨⟨hm', .inr hb⟩, hb, ?_⟩)
      simp only [hostRead, hm, region_buffer _ _ hb, if_false, Bool.false_eq_true]
      by_cases hbusy : s.busy = true
      · exact .inl ⟨hbusy, by simp [hbusy]⟩
      · refine .inr ?_
        simp only [hbusy, Bool.false_eq_true, if_false]
        cases h : s.mem.readRange a.toNat n.bytes with
        | ok bs =>
          obtain ⟨h1, h2⟩ := Memory.readRange_ok _ _ _ _ h
          exact .inl ⟨by simp, bs, h1, h2, rfl⟩
        | error x =>
          obtain ⟨h1, h2, h3⟩ := Memory.readRange_error _ _ _ _ h
          exact .inr ⟨by simp, x, h1, h2, h3, rfl⟩
    · refine .inl ⟨?_, ?_⟩
      · rintro ⟨-, h | h⟩
        · exact hr h.1
        · exact hb h
      · have hu : region s.cfg a = .unmapped := by simp_all [region]
        simp [hostRead, hm, hu]

/-- All a host write can do (R64 to R67, R280). -/
theorem hostWrite_cases (a : BusAddr) (n : Size) (d : Word) (s : State) :
    (¬ Taken s.cfg a n ∧ hostWrite a n d s = .next (busError s)) ∨
    (Taken s.cfg a n ∧ a.toNat < 0x100 ∧ n = .word ∧ hostWrite a n d s = .next (writeWindow a.toNat d s)) ∨
    (Taken s.cfg a n ∧ (inFbuf s.cfg a.toNat = true ∨ inPbuf s.cfg a.toNat = true) ∧
      ((s.busy = true ∧ hostWrite a n d s = .next (dropWrite s)) ∨
        (s.busy = false ∧
          hostWrite a n d s = .next { s with mem := s.mem.writeRange a.toNat (busBytes n d) }))) := by
  by_cases hm : misaligned a n = true
  · left
    refine ⟨fun h => (misaligned_eq a n).mp hm h.1, by simp [hostWrite, hm]⟩
  have hm' : a.toNat % n.bytes = 0 := by
    by_contra h
    exact hm ((misaligned_eq a n).mpr h)
  by_cases hr : a.toNat < 0x100
  · by_cases hn : n = .word
    · exact .inr (.inl ⟨⟨hm', .inl ⟨hr, hn⟩⟩, hr, hn, by subst hn; simp [hostWrite, hm, region_registers _ _ hr]⟩)
    · refine .inl ⟨?_, by simp [hostWrite, hm, region_registers _ _ hr, hn]⟩
      rintro ⟨-, h | h⟩
      · exact hn h.2
      · simp only [inFbuf_iff, inPbuf_iff] at h
        omega
  · by_cases hb : inFbuf s.cfg a.toNat = true ∨ inPbuf s.cfg a.toNat = true
    · refine .inr (.inr ⟨⟨hm', .inr hb⟩, hb, ?_⟩)
      simp only [hostWrite, hm, region_buffer _ _ hb, if_false, Bool.false_eq_true]
      by_cases hbusy : s.busy = true
      · exact .inl ⟨hbusy, by simp [hbusy]⟩
      · exact .inr ⟨by simpa using hbusy, by simp [hbusy]⟩
    · refine .inl ⟨?_, ?_⟩
      · rintro ⟨-, h | h⟩
        · exact hr h.1
        · exact hb h
      · have hu : region s.cfg a = .unmapped := by simp_all [region]
        simp [hostWrite, hm, hu]

/-- All a read of the register window can do (R22, R281). -/
theorem readWindow_cases (o : Nat) (s : State) :
    (regAt o = none ∧ readWindow o s = returnData 0 s) ∨
    (∃ r, regAt o = some r ∧ s.busy = true ∧ exactWhileBusy r = false ∧ readWindow o s = returnFree 32 s) ∨
    (∃ r, regAt o = some r ∧ (s.busy = false ∨ exactWhileBusy r = true) ∧
      readWindow o s = returnData (readReg s r) s) := by
  simp only [readWindow]
  cases regAt o with
  | none => exact .inl ⟨rfl, rfl⟩
  | some r =>
    right
    by_cases hb : s.busy = true <;> by_cases hx : exactWhileBusy r = true <;> simp [hb, hx]

/-- All a write to the register window can do (R22, R65, R280). -/
theorem writeWindow_cases (o : Nat) (d : Word) (s : State) :
    (regAt o = none ∧ s.busy = false ∧ writeWindow o d s = s) ∨
    ((regAt o = none ∨ ∃ r, regAt o = some r ∧ writableWhileBusy r = false) ∧ s.busy = true ∧
      writeWindow o d s = dropWrite s) ∨
    (∃ r, regAt o = some r ∧ (s.busy = false ∨ writableWhileBusy r = true) ∧ writeWindow o d s = writeReg d s r) := by
  simp only [writeWindow]
  cases regAt o with
  | none => by_cases hb : s.busy = true <;> simp [hb]
  | some r => by_cases hb : s.busy = true <;> by_cases hx : writableWhileBusy r = true <;> simp [hb, hx]

/-! ### A step -/

/-- What the engine does in its turn (R16, R231, R260). -/
theorem engineTurn_cases (s : State) :
    (s.rst = true ∧ engineTurn s = .next (resetRegisters s)) ∨
    (s.rst = false ∧ s.busy = false ∧ engineTurn s = .next s) ∨
    (s.rst = false ∧ s.busy = true ∧ engineTurn s = engineStep s) := by
  cases hr : s.rst <;> cases hb : s.busy <;> simp [engineTurn, hr, hb]

/-- What the engine's step is (R231, R236). -/
theorem engineStep_cases (s : State) :
    (∃ i, decode s.cmd = .ok i ∧ engineStep s = exec i s) ∨
    (∃ e, decode s.cmd = .error e ∧ engineStep s = .next (complete .illegal s)) := by
  simp only [engineStep]
  cases decode s.cmd with
  | ok i => exact .inl ⟨i, rfl, rfl⟩
  | error e => exact .inr ⟨e, rfl, rfl⟩

/-- With rst released the host's turn is its access (R16, R60). -/
theorem hostTurn_released (acc : Access) (s : State) (h : s.rst = false) : hostTurn acc s = hostAccess acc s := by
  simp [hostTurn, h]

theorem step_nil (s : State) (h : s.turns = []) : step s = engineTurn s := by simp [step, h]

theorem step_cons (s : State) (t : Turn) (rest : List Turn) (h : s.turns = t :: rest) :
    step s = takeTurn t (withTurns rest s) := by simp [step, h]

/-- Everything a step can do: the engine's turn, a host access, or a level of rst. -/
theorem step_cases (s : State) :
    (s.turns = [] ∧ step s = engineTurn s) ∨
    (∃ rest, s.turns = .engine :: rest ∧ step s = engineTurn (withTurns rest s)) ∨
    (∃ acc rest, s.turns = .host acc :: rest ∧ s.rst = true ∧
      step s = .next (accessUnderReset acc (withTurns rest s))) ∨
    (∃ acc rest, s.turns = .host acc :: rest ∧ s.rst = false ∧ step s = hostAccess acc (withTurns rest s)) ∨
    (∃ l rest, s.turns = .rst l :: rest ∧ step s = .next (setRst l (withTurns rest s))) := by
  cases h : s.turns with
  | nil => exact .inl ⟨rfl, step_nil s h⟩
  | cons t rest =>
    right
    rw [step_cons s t rest h]
    cases t with
    | engine => exact .inl ⟨rest, rfl, rfl⟩
    | host acc =>
      cases hr : s.rst
      · exact .inr (.inr (.inl ⟨acc, rest, rfl, rfl, by simp [takeTurn, hostTurn, hr]⟩))
      · exact .inr (.inl ⟨acc, rest, rfl, rfl, by simp [takeTurn, hostTurn, hr]⟩)
    | rst l => exact .inr (.inr (.inr ⟨l, rest, rfl, rfl⟩))

/-- What a level of rst does (R260). -/
theorem setRst_cases (l : Bool) (s : State) :
    ((l = true ∨ s.rst = true) ∧ setRst l s = { resetRegisters s with rst := l }) ∨
    (l = false ∧ s.rst = false ∧ setRst l s = s) := by
  cases l <;> cases h : s.rst <;> simp [setRst, h]

end Sys2Proof.Machine
end

