-- ==== Sys2Proof/Laws/PerInstr.lean ====
section
/-! SUPPORT. A statement made per instruction: the command's encoding is a word of exactly one row of the opcode table, the row of
its own OP value. -/

namespace Sys2Proof.Laws.EncodeMatchesRow

/-- The encoding of the command is covered by the row whose match holds its OP value, and by no other row (R93). -/
def Statement (i : Instr) : Prop :=
  i.wf = true ∧ ∀ r ∈ opcodeTable, r.covers (encode i) = true ↔ r.matched.toNat = i.op.toNat

theorem nop : Statement .nop := ⟨rfl, by decide⟩

theorem csumf : Statement .csumf := ⟨rfl, by decide⟩

theorem csump : Statement .csump := ⟨rfl, by decide⟩

theorem pad : Statement .pad := ⟨rfl, by decide⟩

theorem enc : Statement .enc := ⟨rfl, by decide⟩

theorem dec (unpad : Bool) : Statement (.dec unpad) := by
  cases unpad <;> exact ⟨rfl, by decide⟩

theorem build (autoseq : Bool) : Statement (.build autoseq) := by
  cases autoseq <;> exact ⟨rfl, by decide⟩

theorem validate : Statement .validate := ⟨rfl, by decide⟩

theorem parse : Statement .parse := ⟨rfl, by decide⟩

theorem authkey : Statement .authkey := ⟨rfl, by decide⟩

theorem keyrst : Statement .keyrst := ⟨rfl, by decide⟩

end Sys2Proof.Laws.EncodeMatchesRow
end

