-- ==== Sys2Proof/Laws/Run.lean ====
section
/-! SUPPORT. Runs of several steps through the host's interface, one step at a time. -/

namespace Sys2Proof.Machine

/-- A run of no step. -/
theorem run_zero (s : State) : Sys2Proof.core.run 0 s = .next s := rfl

/-- A run whose first step answers a next state goes on from it. -/
theorem run_succ_of_next (k : Nat) (s t : State) (h : step s = .next t) :
    Sys2Proof.core.run (k + 1) s = Sys2Proof.core.run k t := by
  have h' : Sys2Proof.core.step s = .next t := h
  simp only [Host.Core.run, h']

/-- A run whose first step is a fault stops there. -/
theorem run_succ_of_fault (k : Nat) (s : State) (f : Fault) (h : step s = .fault f) :
    Sys2Proof.core.run (k + 1) s = .fault f := by
  have h' : Sys2Proof.core.step s = .fault f := h
  simp only [Host.Core.run, h']

/-- A run whose first step is a refusal stops there. -/
theorem run_succ_of_refused (k : Nat) (s : State) (r : Refusal) (h : step s = .refused r) :
    Sys2Proof.core.run (k + 1) s = .refused r := by
  have h' : Sys2Proof.core.step s = .refused r := h
  simp only [Host.Core.run, h']

/-- A run of one step is the step. -/
theorem run_one (s : State) : Sys2Proof.core.run 1 s = step s := by
  cases h : step s with
  | next t => exact (run_succ_of_next 0 s t h).trans (run_zero t)
  | fault f => exact run_succ_of_fault 0 s f h
  | refused r => exact run_succ_of_refused 0 s r h

end Sys2Proof.Machine
end

