-- ==== Sys2Proof/Tests/Slice0.lean ====
section
/-! SUPPORT. The model's own tests: expected values come from the spec's worked vectors (95_test_vectors, named V-…), from its
encoding tables, or by hand from the rule cited. The theorems named witness_<Obligation> show a state and operands that meet the
hypotheses of that obligation, clause by clause. -/

namespace Sys2Proof.Tests
open Sys2Proof Sys2Proof.Machine

/-! ## Helpers -/

/-- A block with the smallest legal buffers (R8). -/
def tiny : Config := { Config.suggested with fbufBytes := 0x50, pbufBytes := 32 }

/-- That block after power-up. -/
def t0 : State := State.powerUp tiny

/-- The bytes 0, 1, .., n-1. -/
def ramp (n : Nat) : List Byte := (List.range n).map (BitVec.ofNat 8)

/-- The state with `bs` in PBUF and PLEN their number. -/
def loadP (bs : List Byte) (s : State) : State := { writePayload 0 bs s with plen := BitVec.ofNat 16 bs.length }

/-- The state with `bs` in FBUF and FLEN their number. -/
def loadF (bs : List Byte) (s : State) : State := { writeFrame bs s with flen := BitVec.ofNat 16 bs.length }

/-- A command in flight. -/
def inFlight (i : Instr) (s : State) : State := issue (encode i) s

/-- A result is a next state with property `p`. -/
def nextWith (p : State → Bool) : Result → Bool
  | .next t => p t
  | .fault _ => false
  | .refused _ => false

theorem exists_of_nextWith {p : State → Bool} {r : Result} (h : nextWith p r = true) : ∃ t, r = .next t ∧ p t = true := by
  cases r with
  | next t => exact ⟨t, rfl, h⟩
  | fault f => cases h
  | refused f => cases h

/-- The bytes a range holds, if all are specified. -/
def bytesAt (s : State) (a n : Nat) : Option (List Byte) := (s.mem.readRange a n).toOption

theorem holds_loadP (bs : List Byte) (s : State) : HoldsBytes (loadP bs s).mem pbufBase bs := holdsBytes_writeRange _ _ _

theorem holds_loadF (bs : List Byte) (s : State) : HoldsBytes (loadF bs s).mem fbufBase bs := holdsBytes_writeRange _ _ _

/-! ## Well-formedness: each check refuses an ill-formed term (R8, R100) -/

theorem test_wf_write_byte : (Access.write 0x2000#14 .byte 0x100#32).wf = false := by decide
theorem test_wf_write_half : (Access.write 0x2000#14 .half 0x10000#32).wf = false := by decide
theorem test_wf_write_fits : (Access.write 0x2000#14 .byte 0xFF#32).wf = true := by decide
theorem test_wf_config_default : Config.suggested.wf = true := by decide
theorem test_wf_config_fbuf_step : { Config.suggested with fbufBytes := 0x49 }.wf = false := by decide
theorem test_wf_config_fbuf_low : { Config.suggested with fbufBytes := 0x40 }.wf = false := by decide
theorem test_wf_config_fbuf_high : { Config.suggested with fbufBytes := 4112 }.wf = false := by decide
theorem test_wf_config_pbuf_step : { Config.suggested with pbufBytes := 40 }.wf = false := by decide
theorem test_wf_config_pbuf_low : { Config.suggested with pbufBytes := 16 }.wf = false := by decide
theorem test_wf_config_pbuf_high : { Config.suggested with pbufBytes := 4112 }.wf = false := by decide

/-! ## Decoding: every constructor's word written out from R90 (RSV, A, U, OP) and R92 -/

theorem test_decode_nop : decode 0b00000000000000000000000000000000#32 = .ok .nop := by decide
theorem test_decode_csumf : decode 0b00000000000000000000000000000001#32 = .ok .csumf := by decide
theorem test_decode_csump : decode 0b00000000000000000000000000000010#32 = .ok .csump := by decide
theorem test_decode_pad : decode 0b00000000000000000000000000000011#32 = .ok .pad := by decide
theorem test_decode_enc : decode 0b00000000000000000000000000000100#32 = .ok .enc := by decide
theorem test_decode_dec : decode 0b00000000000000000000000000000101#32 = .ok (.dec false) := by decide
theorem test_decode_dec_u : decode 0b00000000000000000000000100000101#32 = .ok (.dec true) := by decide
theorem test_decode_build : decode 0b00000000000000000000000000000110#32 = .ok (.build false) := by decide
theorem test_decode_build_a : decode 0b00000000000000000000001000000110#32 = .ok (.build true) := by decide
theorem test_decode_validate : decode 0b00000000000000000000000000000111#32 = .ok .validate := by decide
theorem test_decode_parse : decode 0b00000000000000000000000000001000#32 = .ok .parse := by decide
theorem test_decode_authkey : decode 0b00000000000000000000000000001001#32 = .ok .authkey := by decide
theorem test_decode_keyrst : decode 0b00000000000000000000000000001010#32 = .ok .keyrst := by decide

/-- V-D1 to V-D7 and V-D9: the illegal words, each with its reason. -/
theorem test_decode_illegal :
    decode 0x0000000B#32 = .error .reservedOp ∧ decode 0x000000FF#32 = .error .reservedOp ∧
      decode 0x00000107#32 = .error .unpadNotDec ∧ decode 0x00000205#32 = .error .autoseqNotBuild ∧
      decode 0x00000106#32 = .error .unpadNotDec ∧ decode 0x00000400#32 = .error .reservedBits ∧
      decode 0x80000000#32 = .error .reservedBits ∧ decode 0x00000307#32 = .error .unpadNotDec := by decide

/-- No two rows of the opcode table share a word: their fixed bits differ somewhere both fix (R93). -/
theorem test_opcode_rows_disjoint :
    opcodeTable.Pairwise (fun r q => (r.matched ^^^ q.matched) &&& r.mask &&& q.mask ≠ 0#32) := by decide

/-- The rows are in the order of the commands, under their mnemonics (R92). -/
theorem test_opcode_rows_named : opcodeTable.map OpcodeRow.mnemonic =
    ["NOP", "CSUMF", "CSUMP", "PAD", "ENC", "DEC", "BUILD", "VALIDATE", "PARSE", "AUTHKEY", "KEYRST"] := by decide

theorem test_decodeTableWord : decodeTableWord 32 0x00000206 = some (.build true) ∧ decodeTableWord 32 0x0B = none := by decide

/-- R99: a spelling the assembler knows, and one it refuses. -/
theorem test_assemble : (assemble "DEC.U").map encode = some 0x00000105#32 ∧ assemble "NOP.U" = none := by decide

/-! ## The register map (R23) -/

theorem test_regAt_regOffset : ∀ r ∈ allRegs, regAt (regOffset r) = some r := by decide
theorem test_allRegs_complete (r : Reg) : r ∈ allRegs := by cases r <;> decide
theorem test_regOffset_rising : allRegs.Pairwise (fun r q => regOffset r < regOffset q) := by decide
theorem test_regName_first_last : regName .cmd = "CMD" ∧ regName .rxFcksum = "RX_FCKSUM" ∧ allRegs.length = 31 := by decide

/-! ## Bytes, checksum, padding, cipher -/

/-- R11: least significant byte first. -/
theorem test_le32 : le32 [0x51#8, 0x96#8, 0xfc#8, 0x26#8] = 0x26FC9651#32 := by decide
/-- V-C3, V-C4, V-C6: one byte, two bytes, a wrap to zero. -/
theorem test_csum : csum [0xff] = 0xBFAE#16 ∧ csum [0x01, 0x02] = 0xBEB2#16 ∧ csum (List.replicate 65 0xff ++ [0x92]) = 0x0000#16 := by
  decide +kernel
/-- V-P1, V-P5: an empty payload takes a whole block of padding, and so does a whole block. -/
theorem test_pad_lengths : (pad []).length = 16 ∧ (pad (ramp 16)).length = 32 ∧ (pad (ramp 15)).length = 16 := by decide
/-- V-A6: the inverse cipher on the block of V-A1. -/
theorem test_aesD : aesD (ramp 16)
    [0x69, 0xc4, 0xe0, 0xd8, 0x6a, 0x7b, 0x04, 0x30, 0xd8, 0xcd, 0xb7, 0x80, 0x70, 0xb4, 0xc5, 0x5a] =
    [0x00, 0x11, 0x22, 0x33, 0x44, 0x55, 0x66, 0x77, 0x88, 0x99, 0xaa, 0xbb, 0xcc, 0xdd, 0xee, 0xff] := by decide +kernel
/-- V-A4: two blocks, the second chained from the first. -/
theorem test_cbcE : cbcE
    [0x2b, 0x7e, 0x15, 0x16, 0x28, 0xae, 0xd2, 0xa6, 0xab, 0xf7, 0x15, 0x88, 0x09, 0xcf, 0x4f, 0x3c] (ramp 16)
    [0x6b, 0xc1, 0xbe, 0xe2, 0x2e, 0x40, 0x9f, 0x96, 0xe9, 0x3d, 0x7e, 0x11, 0x73, 0x93, 0x17, 0x2a,
      0xae, 0x2d, 0x8a, 0x57, 0x1e, 0x03, 0xac, 0x9c, 0x9e, 0xb7, 0x6f, 0xac, 0x45, 0xaf, 0x8e, 0x51] =
    [0x76, 0x49, 0xab, 0xac, 0x81, 0x19, 0xb2, 0x46, 0xce, 0xe9, 0x8e, 0x9b, 0x12, 0xe9, 0x19, 0x7d,
      0x50, 0x86, 0xcb, 0x9b, 0x50, 0x72, 0x19, 0xee, 0x95, 0xdb, 0x11, 0x3a, 0x91, 0x76, 0x78, 0xb2] := by decide +kernel

/-! ## One step of each command (V-… of 95_test_vectors) -/

/-- V-S5. -/
theorem test_nop : nextWith (fun t => statusWord t == 0x02#32) (exec .nop { t0 with err := .length, busy := true }) = true := by
  decide
/-- V-K2. -/
theorem test_csumf : nextWith (fun t => t.cksum == 0xBFAE#16) (exec .csumf (loadF [0xff] t0)) = true := by decide
/-- V-K3 at the size of this block: one byte too many. -/
theorem test_csumf_length : nextWith (fun t => t.err == .length) (exec .csumf { t0 with flen := 0x51 }) = true := by decide
/-- V-K5. -/
theorem test_csump : nextWith (fun t => t.cksum == 0xBEB5#16) (exec .csump (loadP (pad [1, 2, 3]) t0)) = true := by decide
/-- V-K6. -/
theorem test_csump_empty : nextWith (fun t => t.cksum == 0xBEAF#16) (exec .csump t0) = true := by decide
/-- V-P6: 17 bytes become 32. -/
theorem test_pad : nextWith (fun t => t.plen == 32 && bytesAt t pbufBase 32 == some (ramp 17 ++ zeros 15))
    (exec .pad (loadP (ramp 17) t0)) = true := by decide +kernel
/-- V-P9 at the size of this block. -/
theorem test_pad_length : nextWith (fun t => t.err == .length && t.plen == 32) (exec .pad { t0 with plen := 32 }) = true := by
  decide
/-- V-E3. -/
theorem test_enc : nextWith (fun t => bytesAt t pbufBase 16 ==
      some [0x29, 0x61, 0xb9, 0x36, 0x36, 0x4b, 0x23, 0x13, 0x58, 0xc0, 0xbf, 0xb8, 0x45, 0x67, 0x9b, 0x7e])
    (exec .enc (loadP (pad [1, 2, 3]) t0)) = true := by decide +kernel
/-- The ciphertext of V-E12 under its key. -/
def v12 : State := setKey (ramp 16) (loadP
  [0x51, 0x96, 0xfc, 0x26, 0x22, 0x6a, 0x5e, 0xaa, 0xa9, 0x27, 0x26, 0xe9, 0x78, 0xdb, 0xad, 0xe2] t0)
/-- V-E12: DEC.U strips five bytes. -/
theorem test_dec_u : nextWith (fun t => t.plen == 11 && bytesAt t pbufBase 16 ==
      some [0x48, 0x45, 0x4c, 0x4c, 0x4f, 0x20, 0x57, 0x4f, 0x52, 0x4c, 0x44, 5, 5, 5, 5, 5]) (exec (.dec true) v12) = true := by
  decide +kernel
/-- The ciphertext of V-E13 under its key. -/
def v13 : State := setKey (ramp 16) (loadP
  [0x75, 0x92, 0xcf, 0x3b, 0x0f, 0xc3, 0xd5, 0x96, 0x64, 0xf6, 0xbf, 0x1f, 0x89, 0xda, 0xd6, 0x24] t0)
/-- V-E13: UNPAD, and the ciphertext stays. -/
theorem test_dec_unpad : nextWith (fun t => t.err == .unpad && t.plen == 16 && t.mem == v13.mem) (exec (.dec true) v13) = true := by
  decide +kernel
/-- The transmit registers of section 2.6. -/
def tx : State := { t0 with devtype := 0x2711, macLo := 0x04030201, macHi := 0x0605, tag := 0x65 }
/-- The frame of P1. -/
def frameP1 : List Byte := [0x5a, 0xa5, 0xaa, 0x55, 0x5a, 0xa5, 0xaa, 0x55] ++ zeros 24 ++
  [0x55, 0xcb, 0, 0, 0x11, 0x27, 0x65, 0, 1, 0, 1, 2, 3, 4, 5, 6, 0, 0, 0, 0, 0xb5, 0xbe, 0, 0,
    0x29, 0x61, 0xb9, 0x36, 0x36, 0x4b, 0x23, 0x13, 0x58, 0xc0, 0xbf, 0xb8, 0x45, 0x67, 0x9b, 0x7e]
/-- V-F2: the whole frame, byte for byte. -/
theorem test_build_a : nextWith (fun t => t.seq == 1 && t.cksum == 0xCB55#16 && t.pcksum == 0xBEB5#16 && t.plen == 3 &&
    bytesAt t fbufBase 0x48 == some frameP1) (exec (.build true) (loadP [1, 2, 3] tx)) = true := by decide +kernel
/-- V-F13: without A the sequence number is placed as it is. -/
theorem test_build : nextWith (fun t => t.seq == 5 && t.flen == 0x38 && bytesAt t (fbufBase + 0x28) 2 == some [5, 0])
    (exec (.build false) { tx with seq := 5 }) = true := by decide +kernel
/-- V-F3. -/
theorem test_validate : nextWith (fun t => t.valid && t.cksum == 0xCB55#16) (exec .validate (loadF frameP1 t0)) = true := by
  decide +kernel
/-- V-F4: one bit flipped. -/
theorem test_validate_corrupt : nextWith (fun t => !t.valid && t.cksum == 0xCB54#16 && t.err == .noError)
    (exec .validate (loadF (frameP1.set 0x38 0x28) t0)) = true := by decide +kernel
/-- P1's frame parsed: V-F8's fields, and the encrypted payload in PBUF. -/
theorem test_parse : nextWith (fun t => t.rxTag == 0x65 && t.rxDevtype == 0x2711#16 && t.rxSeq == 1 &&
      t.rxMacLo == 0x04030201#32 && t.rxMacHi == 0x0605#16 && t.rxPcksum == 0xBEB5#16 && t.rxFcksum == 0xCB55#16 &&
      t.plen == 16 && bytesAt t pbufBase 16 == some (frameP1.drop 0x38)) (exec .parse (loadF frameP1 t0)) = true := by
  decide +kernel
/-- V-F9: PLEN is what follows the header, a multiple of 16 or not. -/
theorem test_parse_short : nextWith (fun t => t.plen == 5) (exec .parse (loadF (ramp 0x3D) t0)) = true := by decide +kernel
/-- V-S1. -/
theorem test_authkey : nextWith (fun t => t.devid == 0x11223344#32 && t.key0 == 0x76543210#32 && t.key1 == 0xFEDCBA98#32 &&
      t.key2 == 0x67452301#32 && t.key3 == 0xEFCDAB89#32)
    (exec .authkey (loadP [0x44, 0x33, 0x22, 0x11, 0x10, 0x32, 0x54, 0x76, 0x98, 0xba, 0xdc, 0xfe, 0x01, 0x23, 0x45, 0x67,
      0x89, 0xab, 0xcd, 0xef] t0)) = true := by decide +kernel
/-- V-S3. -/
theorem test_authkey_length : nextWith (fun t => t.err == .length && t.devid == 7) (exec .authkey { t0 with plen := 19, devid := 7 }) =
    true := by decide
/-- V-S4. -/
theorem test_keyrst : nextWith (fun t => t.devid == 0 && t.key0 == 0x34287609#32 && t.key3 == 0x028BCFAC#32)
    (exec .keyrst { t0 with devid := 0x11223344, key0 := 0x76543210, key3 := 0 }) = true := by decide

/-! ## The bus and the step -/

/-- V-B1: a 16-bit write to a register. -/
theorem test_bus_wrong_size : nextWith (fun t => t.buserr && t.plen == 0) (hostAccess (.write 0x0010#14 .half 5) t0) = true := by
  decide
/-- V-B2: misaligned in FBUF. -/
theorem test_bus_misaligned : nextWith (fun t => t.buserr && t.mem == []) (hostAccess (.write 0x1002#14 .word 1) t0) = true := by
  decide
/-- V-B5: little-endian. -/
theorem test_bus_little_endian : nextWith (fun t => bytesAt t 0x2000 1 == some [0x51])
    (hostAccess (.write 0x2000#14 .word 0x26FC9651) t0) = true := by decide
/-- V-D1: an illegal word completes with ILLEGAL. -/
theorem test_step_illegal : nextWith (fun t => statusWord t == 0x12#32) (step (issue 0x0000000B#32 t0)) = true := by decide
/-- What the host asks: the word placed by withFetchWord runs at the very next step. -/
theorem test_withFetchWord : nextWith (fun t => statusWord t == 0x02#32 && t.cmd == 0x0A#32) (step (State.reset.withFetchWord 32 0x0A)) =
    true := by decide
/-- R16: a scheduled host access is what the step does; here it issues KEYRST (R230). -/
theorem test_step_host_turn : nextWith (fun t => t.busy && t.cmd == 0x0A#32 && t.turns == [.engine])
    (step { t0 with turns := [.host (.write 0x0000#14 .word 0x0A), .engine] }) = true := by decide
/-- R16: the engine's turn while idle does nothing, though CMD still holds KEYRST. -/
theorem test_step_engine_idle : nextWith (fun t => t.key0 == 5 && t.turns == [])
    (step { t0 with cmd := 0x0A, key0 := 5, turns := [.engine] }) = true := by decide
/-- R281, R26: STATUS reads BUSY = 1 and the old error while a command is in flight. -/
theorem test_status_while_busy : nextWith (fun t => t.rdata == 0x21#32)
    (hostAccess (.read 0x0004#14 .word) (inFlight .pad { t0 with err := .length })) = true := by decide
/-- Log 18: an offset past the 14-bit bus wraps. -/
theorem test_scriptAddr_wraps : scriptAddr (.fbuf 0x2FFF) = 0x3FFF#14 ∧ scriptAddr (.fbuf 0x3000) = 0x0000#14 := by decide
/-- R261: the words at reset with the suggested parameters. -/
theorem test_reset_words : readReg State.reset .key1 = 0x239EE93F#32 ∧ readReg State.reset .iv0 = 0x99172E56#32 ∧
    readReg State.reset .iv3 = 0x586F2E5A#32 ∧ readReg State.reset .caps = 0x08000800#32 := by decide

/-! ## Witnesses: states and operands that meet the hypotheses of the obligations -/

/-- A command in flight with no turn left, at the engine's turn, at a host's turn, and at a level of rst that stays released. -/
theorem witness_StepRunsLatchedCommand :
    let s := inFlight (.dec true) t0
    s.rst = false ∧ s.busy = true ∧ decode s.cmd = .ok (.dec true) ∧ (Instr.dec true).wf = true ∧ s.turns = [] ∧
      { s with turns := [.engine, .rst true] }.turns = .engine :: [.rst true] ∧
      { s with turns := [.host (.read 0x0004#14 .word), .engine] }.turns = .host (.read 0x0004#14 .word) :: [.engine] ∧
      { s with turns := [.rst false] }.turns = .rst false :: [] := by decide

theorem witness_IssueLatchesWord : t0.busy = false := by decide

theorem witness_EngineStepCompletes :
    (let s := inFlight .pad t0; s.rst = false ∧ s.busy = true ∧ decode s.cmd = .ok .pad ∧ nextWith (fun _ => true) (engineTurn s) = true) ∧
    (let s := issue 0x0000000B#32 t0; s.rst = false ∧ s.busy = true ∧ decode s.cmd = .error .reservedOp) ∧
    (t0.rst = false ∧ t0.busy = false) := by decide

theorem witness_ErrorsArePrecise :
    (∃ t, engineStep (inFlight .validate { t0 with valid := true }) = .next t ∧ decide (t.err ≠ .noError) = true) ∧
    decode (inFlight .validate t0).cmd = .ok .validate ∧
    (∃ t, engineStep (inFlight .authkey { t0 with valid := true }) = .next t ∧ decide (t.err ≠ .noError) = true) ∧
    decode (inFlight .authkey t0).cmd ≠ .ok .validate :=
  ⟨exists_of_nextWith (by decide), by decide, exists_of_nextWith (by decide), by decide⟩

/-- The LENGTH condition of every row that has one, one step past the boundary (R237), and a command that raises it. -/
theorem witness_LengthRaisedExactlyWhen :
    tiny.Legal ∧ lengthCondition .csumf { t0 with flen := 0x51 } ∧ lengthCondition .csump { t0 with plen := 33 } ∧
      lengthCondition .pad { t0 with plen := 32 } ∧ lengthCondition .enc { t0 with plen := 31 } ∧
      lengthCondition (.dec true) { t0 with plen := 48 } ∧ lengthCondition (.build false) { t0 with plen := 16 } ∧
      lengthCondition .validate { t0 with flen := 0x37 } ∧ lengthCondition .parse { t0 with flen := 0x51 } ∧
      lengthCondition .authkey { t0 with plen := 19 } ∧
      (∃ t, exec .pad { t0 with plen := 32 } = .next t ∧ decide (t.err = .length) = true) := by
  refine ⟨by decide, ?_, ?_, ?_, ?_, ?_, ?_, ?_, ?_, ?_, exists_of_nextWith (by decide)⟩ <;>
    simp [lengthCondition, frameLength, payloadLength, t0, State.powerUp, tiny, paddedLength]

theorem witness_UnpadRaisedExactlyWhen :
    (∃ t, exec (.dec true) v13 = .next t ∧ decide (t.err = .unpad) = true) ∧
      (∃ t, exec (.dec true) v12 = .next t ∧ decide (t.err = .noError) = true) :=
  ⟨exists_of_nextWith (by decide +kernel), exists_of_nextWith (by decide +kernel)⟩

theorem witness_IllegalOnlyForIllegalWords :
    decode (issue 0x00000107#32 t0).cmd = .error .unpadNotDec ∧ (∃ t, exec .nop t0 = .next t) ∧ (∃ t, exec .keyrst t0 = .next t) ∧
      ∃ t, exec .authkey t0 = .next t :=
  ⟨by decide, ⟨_, rfl⟩, ⟨_, rfl⟩, ⟨_, rfl⟩⟩

/-- A ready command, and one that reads an unspecified byte. -/
theorem witness_ReadyCommandsNeverStop :
    CommandReady .csump { t0 with plen := 0 } ∧ exec .csump { t0 with plen := 1 } = .fault (.commandReadsUnspecified 0x2000) := by
  refine ⟨?_, rfl⟩
  intro r hr
  simp only [operandRanges, List.mem_singleton] at hr
  subst hr
  intro k hk
  exact absurd hk (Nat.not_lt_zero k)

theorem witness_IssuedCommandCompletes :
    let s := { inFlight .keyrst t0 with turns := [.host (.read 0x0004#14 .word), .rst false, .engine] }
    s.busy = true ∧ s.rst = false ∧ (∀ t ∈ s.turns, t ≠ .rst true) ∧ LatchReady s := by
  refine ⟨by decide, by decide, by decide, ?_⟩
  intro i hi
  cases (show Except.ok Instr.keyrst = Except.ok i from hi)
  intro r hr
  cases hr

theorem witness_ScheduleDoesNotChangeResult :
    let s := inFlight .keyrst t0
    s.rst = false ∧ s.busy = true ∧ nextWith (fun _ => true) (step { s with turns := [.engine] }) = true := by decide

theorem witness_NopOnlyCompletes :
    statusWord { t0 with err := .length } = 0x20#32 ∧
      nextWith (fun _ => true) (exec .nop (issue 0x00000000#32 { t0 with err := .length })) = true := by decide

/-- Both clauses at the boundary FLEN = FBUF_BYTES + 1 and FLEN = FBUF_BYTES. -/
theorem witness_CsumfSumsFrame :
    (let s := { t0 with flen := 0x51 }; s.cfg.fbufBytes < s.flen.toNat) ∧
    (let s := loadF (ramp 0x50) t0
     (ramp 0x50).length = s.flen.toNat ∧ s.flen.toNat ≤ s.cfg.fbufBytes ∧ HoldsBytes s.mem fbufBase (ramp 0x50)) :=
  ⟨by decide, by decide, by decide, holds_loadF _ _⟩

theorem witness_CsumpSumsPayload :
    (let s := { t0 with plen := 33 }; s.cfg.pbufBytes < s.plen.toNat) ∧
    (let s := loadP (ramp 32) t0
     (ramp 32).length = s.plen.toNat ∧ s.plen.toNat ≤ s.cfg.pbufBytes ∧ HoldsBytes s.mem pbufBase (ramp 32)) :=
  ⟨by decide, by decide, by decide, holds_loadP _ _⟩

/-- PLEN = 32 does not fit padded, PLEN = 31 just does. -/
theorem witness_PadAppendsZeros :
    tiny.Legal ∧ t0.cfg = tiny ∧ (let n := ({ t0 with plen := 32 } : State).plen.toNat; tiny.pbufBytes < n + (16 - n % 16)) ∧
      (let n := ({ t0 with plen := 31 } : State).plen.toNat; n + (16 - n % 16) ≤ tiny.pbufBytes) := by decide

theorem witness_EncEncryptsInPlace :
    (let s := { t0 with plen := 33 }; s.cfg.pbufBytes < s.plen.toNat) ∧ ({ t0 with plen := 15 } : State).plen.toNat % 16 ≠ 0 ∧
    (let s := loadP (ramp 32) t0
     (ramp 32).length = s.plen.toNat ∧ s.plen.toNat ≤ s.cfg.pbufBytes ∧ s.plen.toNat % 16 = 0 ∧
       HoldsBytes s.mem pbufBase (ramp 32)) :=
  ⟨by decide, by decide, by decide, by decide, by decide, holds_loadP _ _⟩

/-- The plaintext of V-E12, and that of V-E13: its last byte is 0x20. -/
theorem witness_DecDecryptsInPlace :
    ({ t0 with plen := 15 } : State).plen.toNat % 16 ≠ 0 ∧
    (v12.plen.toNat ≤ v12.cfg.pbufBytes ∧ v12.plen.toNat % 16 = 0 ∧ 0 < v12.plen.toNat ∧
      ∃ c, c.length = v12.plen.toNat ∧ HoldsBytes v12.mem pbufBase c ∧
        (byteAt (cbcD (keyBytes v12) (ivBytes v12) c) (v12.plen.toNat - 1)).toNat ≤ v12.plen.toNat) ∧
    (∃ c, c.length = v13.plen.toNat ∧ HoldsBytes v13.mem pbufBase c ∧
        v13.plen.toNat < (byteAt (cbcD (keyBytes v13) (ivBytes v13) c) (v13.plen.toNat - 1)).toNat) :=
  ⟨by decide, ⟨by decide, by decide, by decide, _, rfl, holds_loadP _ _, by decide +kernel⟩,
    ⟨_, rfl, holds_loadP _ _, by decide +kernel⟩⟩

/-- The largest payload that fits in this block's FBUF: 15 bytes, a frame of 0x48. -/
theorem witness_BuildWithPayload :
    let s := loadP (ramp 15) tx
    s.cfg.Legal ∧ (ramp 15).length = s.plen.toNat ∧ 0 < (ramp 15).length ∧ (ramp 15).length ≤ s.cfg.pbufBytes ∧
      0x38 + ((ramp 15).length + (16 - (ramp 15).length % 16)) ≤ s.cfg.fbufBytes ∧ HoldsBytes s.mem pbufBase (ramp 15) :=
  ⟨by decide, by decide, by decide, by decide, by decide, holds_loadP _ _⟩

theorem witness_BuildHeaderOnly : tx.cfg.Legal ∧ tx.plen.toNat = 0 := by decide

theorem witness_BuildSequenceNumber :
    tx.cfg.Legal ∧ (∃ t, exec (.build true) { tx with seq := 0xFFFF } = .next t ∧ decide (t.err = .noError) = true) ∧
      ∃ t, exec (.build true) { tx with plen := 16 } = .next t ∧ decide (t.err ≠ .noError) = true :=
  ⟨by decide, exists_of_nextWith (by decide +kernel), exists_of_nextWith (by decide)⟩

theorem witness_BuildKeepsOtherBytes :
    tx.cfg.Legal ∧ ∃ t, exec (.build false) tx = .next t ∧ decide (t.err = .noError) = true :=
  ⟨by decide, exists_of_nextWith (by decide +kernel)⟩

/-- FLEN = 0x37 and FBUF_BYTES + 1, and FLEN = 0x38. -/
theorem witness_ValidateChecksFrame :
    ({ t0 with flen := 0x37 } : State).flen.toNat < 0x38 ∧ (let s := { t0 with flen := 0x51 }; s.cfg.fbufBytes < s.flen.toNat) ∧
    (let s := loadF (ramp 0x38) t0
     (ramp 0x38).length = s.flen.toNat ∧ 0x38 ≤ s.flen.toNat ∧ s.flen.toNat ≤ s.cfg.fbufBytes ∧
       HoldsBytes s.mem fbufBase (ramp 0x38)) :=
  ⟨by decide, by decide, by decide, by decide, by decide, holds_loadF _ _⟩

theorem witness_ValidateKeepsBuffers : ∃ t, exec .validate { t0 with flen := 0x37 } = .next t := ⟨_, rfl⟩

/-- A frame whose preamble is unspecified: only bytes 0x20..0x35 and 0x38.. are there. -/
theorem witness_ParseReadsHeader :
    tiny.Legal ∧ ({ t0 with flen := 0x37 } : State).flen.toNat < 0x38 ∧
    (let s := { t0 with flen := 0x39, mem := (t0.mem.writeRange 0x1020 (zeros 0x16)).writeRange 0x1038 [0#8] }
     (zeros 0x39).length = s.flen.toNat ∧ 0x38 ≤ s.flen.toNat ∧ s.flen.toNat ≤ s.cfg.fbufBytes ∧
       s.flen.toNat - 0x38 ≤ s.cfg.pbufBytes ∧
       ∀ k, k < (zeros 0x39).length → (0x20 ≤ k ∧ k < 0x36) ∨ 0x38 ≤ k → s.mem.read (fbufBase + k) = some (byteAt (zeros 0x39) k)) := by
  decide +kernel

theorem witness_AuthkeyTakesKey :
    ({ t0 with plen := 19 } : State).plen.toNat < 20 ∧ (let s := { t0 with plen := 33 }; s.cfg.pbufBytes < s.plen.toNat) ∧
    (let s := loadP (ramp 20) t0
     (ramp 20).length = 20 ∧ 20 ≤ s.plen.toNat ∧ s.plen.toNat ≤ s.cfg.pbufBytes ∧ HoldsBytes s.mem pbufBase (ramp 20)) :=
  ⟨by decide, by decide, by decide, by decide, by decide, holds_loadP _ _⟩

theorem witness_KeyrstRestoresDefault : t0.cfg.defaultKey = Config.suggested.defaultKey := by decide

/-- The state an AUTHKEY of 20 bytes leaves. -/
def authed : State :=
  match exec .authkey (loadP (ramp 20) State.reset) with
  | .next t => t
  | .fault _ => State.reset
  | .refused _ => State.reset

theorem authed_eq : exec .authkey (loadP (ramp 20) State.reset) = .next authed := by
  obtain ⟨t, h, -⟩ := exists_of_nextWith (p := fun _ => true) (r := exec .authkey (loadP (ramp 20) State.reset)) (by decide +kernel)
  rw [authed, h]

theorem witness_AuthkeyBytesReappear :
    (loadP (ramp 20) State.reset).cfg.Legal ∧ exec .authkey (loadP (ramp 20) State.reset) = .next authed ∧ authed.err = .noError ∧
      ∃ u, exec (.build true) authed = .next u ∧ decide (u.err = .noError) = true :=
  ⟨by decide, authed_eq, by decide +kernel, exists_of_nextWith (by decide +kernel)⟩

theorem witness_NewKeyInUse :
    let s := loadP (ramp 20) State.reset
    exec .authkey s = .next authed ∧ authed.err = .noError ∧ (ramp 20).length = 20 ∧ HoldsBytes s.mem pbufBase (ramp 20) ∧
      (∃ (n : Half) (q : List Byte), q.length = n.toNat ∧ n.toNat ≤ s.cfg.pbufBytes ∧ n.toNat % 16 = 0 ∧
        HoldsBytes authed.mem pbufBase q ∧ n = 16) :=
  ⟨authed_eq, by decide +kernel, by decide, holds_loadP _ _, 16, ramp 16, by decide, by decide, by decide, by
    unfold HoldsBytes; decide +kernel, rfl⟩

theorem witness_ChecksumLaws : [1#8, 2#8].Perm [2#8, 1#8] ∧ (5#8).toNat = (3#8).toNat + 2 ∧ (5#8) ≠ 3#8 := by decide

theorem witness_ZeroedChecksumArithmetic : 0x22 ≤ (ramp 0x22).length := by decide

theorem witness_BlockDecryptInvertsEncrypt : (ramp 16).length = 16 ∧ (zeros 16).length = 16 := by decide

theorem witness_CbcDecryptInvertsEncrypt : (ramp 16).length = 16 ∧ (zeros 16).length = 16 ∧ (ramp 32).length % 16 = 0 := by decide

theorem witness_SboxIsAffineOfInverse : (0x53#8) ≠ 0 ∧ gmul 0x53 0xCA = 1 := by decide

/-- 31 bytes: the padded payload fills this block's PBUF. -/
theorem witness_PadEncDecRoundTrip :
    let s := loadP (ramp 31) t0
    s.cfg.Legal ∧ (ramp 31).length = s.plen.toNat ∧ (pad (ramp 31)).length ≤ s.cfg.pbufBytes ∧
      HoldsBytes s.mem pbufBase (ramp 31) :=
  ⟨by decide, by decide, by decide, holds_loadP _ _⟩

theorem witness_BuiltFrameValidates :
    tx.cfg.Legal ∧ ∃ t, exec (.build false) tx = .next t ∧ decide (t.err = .noError) = true ∧ t.cfg = t.cfg ∧ t.flen = t.flen ∧
      ∀ k, k < t.cfg.fbufBytes → t.mem.read (fbufBase + k) = t.mem.read (fbufBase + k) := by
  obtain ⟨t, h1, h2⟩ := exists_of_nextWith (p := fun t => decide (t.err = .noError)) (r := exec (.build false) tx) (by decide +kernel)
  exact ⟨by decide, t, h1, h2, rfl, rfl, fun _ _ => rfl⟩

/-- P1's frame, corrupted in its last byte. -/
theorem witness_CorruptedFrameIsRejected :
    (∃ t, exec .validate (loadF frameP1 t0) = .next t ∧ (decide (t.err = .noError) && t.valid) = true) ∧
      0x47 < (loadF frameP1 t0).flen.toNat ∧ (0x47 ≠ 0x20) ∧ (0x47 ≠ 0x21) ∧
      (loadF frameP1 t0).mem.read (fbufBase + 0x47) ≠ some 0#8 :=
  ⟨exists_of_nextWith (by decide +kernel), by decide +kernel, by decide, by decide, by decide +kernel⟩

theorem witness_ReceivedPayloadRecovered :
    let s := loadP [1, 2, 3] tx
    s.cfg.Legal ∧ [1#8, 2#8, 3#8].length = s.plen.toNat ∧ 0 < [1#8, 2#8, 3#8].length ∧ HoldsBytes s.mem pbufBase [1, 2, 3] ∧
      (pad [1#8, 2#8, 3#8]).length ≤ s.cfg.pbufBytes ∧ ∃ t, exec (.build true) s = .next t ∧ decide (t.err = .noError) = true :=
  ⟨by decide, by decide, by decide, holds_loadP _ _, by decide, exists_of_nextWith (by decide +kernel)⟩

/-- The last word of each buffer, and bytes to read there. -/
theorem witness_BufferAccessMovesBytes :
    tiny.Legal ∧ t0.busy = false ∧ (0x104C#14).toNat % Size.word.bytes = 0 ∧ inFbuf t0.cfg (0x104C#14).toNat = true ∧
      inPbuf t0.cfg (0x201C#14).toNat = true ∧ (ramp 4).length = Size.word.bytes ∧
      HoldsBytes { t0 with mem := t0.mem.writeRange (0x104C#14).toNat (ramp 4) }.mem (0x104C#14).toNat (ramp 4) :=
  ⟨by decide, by decide, by decide, by decide, by decide, by decide, holdsBytes_writeRange _ _ _⟩

/-- Misaligned, a register access of two bytes, and the first byte past FBUF. -/
theorem witness_UntakenAccessSetsBuserr :
    (0x1002#14).toNat % Size.word.bytes ≠ 0 ∧ ((0x0010#14).toNat < 0x100 ∧ Size.half ≠ .word) ∧
      (0x100 ≤ (0x1050#14).toNat ∧ ¬ (0x1000 ≤ (0x1050#14).toNat ∧ (0x1050#14).toNat < 0x1000 + t0.cfg.fbufBytes) ∧
        ¬ (0x2000 ≤ (0x1050#14).toNat ∧ (0x1050#14).toNat < 0x2000 + t0.cfg.pbufBytes)) := by decide

theorem witness_RegisterReadsFollowTheMap :
    t0.busy = false ∧ (0x084#14).toNat % 4 = 0 ∧ 0x084 ≤ (0x084#14).toNat ∧ (0x0FC#14).toNat % 4 = 0 ∧ (0x0FC#14).toNat ≤ 0x0FC := by
  decide

/-- CKSUM's offset, and the last of the window. -/
theorem witness_RegisterWritesFollowTheMap :
    t0.busy = false ∧ (0x02C#14).toNat < 0x100 ∧ (0x02C#14).toNat % 4 = 0 ∧
      (0x02C#14).toNat ∉ [0x000, 0x004, 0x008, 0x00C, 0x010, 0x014, 0x018, 0x01C, 0x020, 0x024, 0x028, 0x040, 0x044, 0x048, 0x04C] ∧
      (0x0FC#14).toNat < 0x100 ∧ (0x0FC#14).toNat % 4 = 0 := by decide

/-- STATUS, CTRL, CMD and the last byte of PBUF. -/
theorem witness_WritesWhileBusyAreDropped :
    ((0x1050#14).toNat % Size.word.bytes = 0 ∧ inFbuf t0.cfg (0x1050#14).toNat = false ∧ inPbuf t0.cfg (0x1050#14).toNat = false) ∧
    (inFlight .nop t0).busy = true ∧ (0x004#14).toNat % Size.word.bytes = 0 ∧ (0x004#14).toNat < 0x100 ∧
      (0x008#14).toNat % Size.word.bytes = 0 ∧ (0x000#14 : BusAddr) ≠ 0x004#14 ∧ (0x000#14 : BusAddr) ≠ 0x008#14 ∧
      (0x201F#14).toNat % Size.byte.bytes = 0 ∧ inPbuf t0.cfg (0x201F#14).toNat = true := by decide

theorem witness_ReadsWhileBusy :
    (inFlight .nop t0).busy = true ∧ Reg.key0 ∉ [Reg.cmd, .status, .ctrl, .caps, .iv0, .iv1, .iv2, .iv3] ∧
      (0x104C#14).toNat % Size.word.bytes = 0 ∧ inFbuf t0.cfg (0x104C#14).toNat = true := by decide

theorem witness_ReadsHaveNoSideEffect :
    t0.busy = false ∧ (∃ t, hostAccess (.read 0x0004#14 .word) t0 = .next t) ∧
      (∃ t, hostAccess (.read 0x0100#14 .word) { t0 with buserr := true } = .next t) :=
  ⟨by decide, ⟨_, rfl⟩, ⟨_, rfl⟩⟩

theorem witness_OnlyValidateWritesValid :
    nextWith (fun t => decide (t.valid ≠ true)) (step (inFlight .validate { t0 with valid := true })) = true ∧
      nextWith (fun t => decide (t.err = .length)) (exec .validate t0) = true := by decide

theorem witness_KeyWriters :
    nextWith (fun t => decide (keyBytes t ≠ keyBytes { t0 with turns := [.host (.write 0x040#14 .word 5)] }))
      (step { t0 with turns := [.host (.write 0x040#14 .word 5)] }) = true ∧
    nextWith (fun t => decide (keyBytes t ≠ keyBytes { t0 with key3 := 5 })) (step (inFlight .keyrst { t0 with key3 := 5 })) = true ∧
    nextWith (fun t => decide (keyBytes t ≠ keyBytes { t0 with key3 := 5 })) (step { t0 with key3 := 5, turns := [.rst true] }) = true := by
  decide

theorem witness_CommandsWriteOnlyTheirOperands :
    t0.cfg.Legal ∧ nextWith (fun t => decide (t.mem.read 0x2000 ≠ t0.mem.read 0x2000)) (exec .pad t0) = true := by decide

theorem witness_ConstantRegistersStay : t0.cfg.Legal ∧ nextWith (fun _ => true) (step (inFlight .keyrst t0)) = true := by decide

theorem witness_StickyFlagsWriters :
    nextWith (fun t => decide (t.overrun ≠ false)) (step { inFlight .nop t0 with turns := [.host (.write 0x00C#14 .word 5)] }) = true ∧
    nextWith (fun t => decide (t.overrun ≠ true))
      (step { t0 with overrun := true, turns := [.host (.write 0x004#14 .word 0x302)] }) = true ∧
    nextWith (fun t => decide (t.buserr ≠ false)) (step { t0 with turns := [.host (.read 0x100#14 .word)] }) = true ∧
    nextWith (fun t => decide (t.buserr ≠ true))
      (step { t0 with buserr := true, turns := [.host (.write 0x004#14 .word 0x302)] }) = true := by decide

/-- The invariant holds in a state with a command in flight, and a step follows. -/
theorem witness_StepKeepsInvariant : Inv (inFlight .pad t0) ∧ nextWith (fun _ => true) (step (inFlight .pad t0)) = true := by
  refine ⟨?_, by decide⟩
  exact
    { legal := by decide
      canonical := List.Pairwise.nil
      inBuffers := fun _ h => nomatch h
      busyNotDone := fun _ => rfl
      heldInReset := fun h => nomatch (show false = true from h) }

/-- Asserted and waiting, newly asserted over a command in flight, and released. -/
theorem witness_ResetInputTakesPrecedence :
    ({ t0 with rst := true } : State).rst = true ∧ (inFlight .nop { t0 with turns := [.rst true] }).turns = .rst true :: [] ∧
      ({ t0 with rst := true, turns := [.rst false] } : State).turns = .rst false :: [] := by decide

theorem witness_InterruptFollowsDone :
    nextWith (fun _ => true) (exec .nop t0) = true ∧ t0.busy = false ∧
      nextWith (fun _ => true) (hostAccess (.write 0x000#14 .word 0) t0) = true ∧ (0x302#32).getLsbD 1 = true ∧
      nextWith (fun _ => true) (hostAccess (.write 0x004#14 .word 0x302) t0) = true ∧
      nextWith (fun _ => true) (hostAccess (.write 0x008#14 .word 1) t0) = true := by decide

end Sys2Proof.Tests
end

section
/-! Lengths of what the cipher and BUILD store, and the sixteen bytes of four register words. -/

namespace Sys2Proof.Machine

/-! ### Lengths -/

@[simp] theorem length_storeBlock (b : Block) : (storeBlock b).length = 16 := rfl

@[simp] theorem length_aesE (key inp : List Byte) : (aesE key inp).length = 16 := rfl

@[simp] theorem length_aesD (key inp : List Byte) : (aesD key inp).length = 16 := rfl

@[simp] theorem length_xorBytes (a b : List Byte) : (xorBytes a b).length = min a.length b.length :=
  List.length_zipWith

@[simp] theorem length_cbcEncFrom (key : List Byte) (k : Nat) (prev p : List Byte) :
    (cbcEncFrom key k prev p).length = 16 * k := by
  induction k generalizing prev p with
  | zero => rfl
  | succ k ih =>
    simp only [cbcEncFrom, List.length_append, length_aesE, ih]
    omega

@[simp] theorem length_cbcE (key iv p : List Byte) : (cbcE key iv p).length = 16 * (p.length / 16) :=
  length_cbcEncFrom ..

theorem length_cbcDecFrom (key : List Byte) (k : Nat) (prev c : List Byte) (hprev : prev.length = 16)
    (hc : 16 * k ≤ c.length) : (cbcDecFrom key k prev c).length = 16 * k := by
  induction k generalizing prev c with
  | zero => rfl
  | succ k ih =>
    have htake : (c.take 16).length = 16 := by rw [List.length_take]; omega
    have hdrop : 16 * k ≤ (c.drop 16).length := by rw [List.length_drop]; omega
    simp only [cbcDecFrom, List.length_append, length_xorBytes, length_aesD, hprev, ih _ _ htake hdrop]
    omega

theorem length_cbcD (key iv c : List Byte) (hiv : iv.length = 16) :
    (cbcD key iv c).length = 16 * (c.length / 16) :=
  length_cbcDecFrom key _ iv c hiv (Nat.mul_div_le c.length 16)

@[simp] theorem length_ivBytes (s : State) : (ivBytes s).length = 16 := Vector.length_toList

theorem paddedLength_mod (n : Nat) : paddedLength n % 16 = 0 := by
  simp only [paddedLength]
  omega

@[simp] theorem length_pad (bs : List Byte) : (pad bs).length = paddedLength bs.length := by
  simp [pad, paddedLength]

@[simp] theorem length_buildPlaintext (p : List Byte) : (buildPlaintext p).length = buildPayloadLength p.length := by
  by_cases h : p = [] <;> simp [buildPlaintext, buildPayloadLength, h]

theorem buildPayloadLength_mod (n : Nat) : buildPayloadLength n % 16 = 0 := by
  by_cases h : n = 0 <;> simp [buildPayloadLength, h, paddedLength_mod]

@[simp] theorem length_frameHeader (s : State) (fc seq pc : Half) : (frameHeader s fc seq pc).length = hdrLen := by
  simp [frameHeader, macBytes, hdrLen]

/-- The frame BUILD stores is as long as its LENGTH check counts it (R130). -/
theorem length_buildFrame (a : Bool) (p : List Byte) (s : State) :
    (buildFrame a p s).length = hdrLen + buildPayloadLength p.length := by
  have hmod := buildPayloadLength_mod p.length
  simp only [buildFrame, List.length_append, length_frameHeader, length_cbcE, length_buildPlaintext]
  omega

theorem length_busBytes_le (n : Size) (d : Word) : (busBytes n d).length ≤ n.bytes :=
  List.length_take_le ..

/-! ### Four register words -/

theorem take_append_slice (bs : List Byte) (a b : Nat) (h : a ≤ b) : bs.take a ++ slice bs a b = bs.take b := by
  calc bs.take a ++ slice bs a b = (bs.take b).take a ++ (bs.take b).drop a := by
        rw [List.take_take, Nat.min_eq_left h, slice]
    _ = bs.take b := List.take_append_drop a (bs.take b)

theorem bytesLE32_wordOf (bs : List Byte) (n : Nat) (h : 4 * n + 4 ≤ bs.length) :
    bytesLE32 (wordOf bs n) = slice bs (4 * n) (4 * n + 4) :=
  bytesLE32_le32_of_length _ (by rw [length_slice _ _ _ h]; omega)

/-- Sixteen bytes are the bytes of their four words, KEY0..KEY3 or IV0..IV3 (R40, R41). -/
theorem bytes_of_words (bs : List Byte) (h : bs.length = 16) :
    bytesLE32 (wordOf bs 0) ++ bytesLE32 (wordOf bs 1) ++ bytesLE32 (wordOf bs 2) ++ bytesLE32 (wordOf bs 3) = bs := by
  have hword : ∀ n < 4, bytesLE32 (wordOf bs n) = slice bs (4 * n) (4 * n + 4) :=
    fun n hn => bytesLE32_wordOf bs n (by omega)
  calc bytesLE32 (wordOf bs 0) ++ bytesLE32 (wordOf bs 1) ++ bytesLE32 (wordOf bs 2) ++ bytesLE32 (wordOf bs 3)
      = bs.take 0 ++ slice bs 0 4 ++ slice bs 4 8 ++ slice bs 8 12 ++ slice bs 12 16 := by
        rw [hword 0 (by omega), hword 1 (by omega), hword 2 (by omega), hword 3 (by omega)]
        rfl
    _ = bs := by
        simp only [take_append_slice, Nat.reduceLeDiff]
        exact List.take_of_length_le h.le

end Sys2Proof.Machine
end

section
/-! What a command or a host access may do to the block with rst released: the parameters and the pin stay, the memory changes
by at most one write inside the buffers, and DONE is not left set over a command in flight. -/

namespace Sys2Proof.Machine

/-- Every byte of `[a, a+n)` is one of FBUF's or PBUF's (R63). -/
def RangeInBuffers (c : Config) (a n : Nat) : Prop :=
  ∀ x, a ≤ x → x < a + n → inFbuf c x = true ∨ inPbuf c x = true

theorem RangeInBuffers.empty (c : Config) (a : Nat) : RangeInBuffers c a 0 := fun x h1 h2 => by omega

theorem RangeInBuffers.mono {c : Config} {a n m : Nat} (h : RangeInBuffers c a n) (hm : m ≤ n) : RangeInBuffers c a m :=
  fun x h1 h2 => h x h1 (by omega)

theorem rangeInBuffers_frame (c : Config) (n : Nat) (h : n ≤ c.fbufBytes) : RangeInBuffers c fbufBase n :=
  fun x h1 h2 => .inl ((inFbuf_iff c x).mpr ⟨h1, by simp only [fbufBase] at h2; omega⟩)

theorem rangeInBuffers_payload (c : Config) (lo n : Nat) (h : lo + n ≤ c.pbufBytes) :
    RangeInBuffers c (pbufBase + lo) n :=
  fun x h1 h2 => .inr ((inPbuf_iff c x).mpr (by simp only [pbufBase] at h1 h2; omega))

/-- An access the map takes in a buffer lies in it whole: the buffers begin and end on 16-byte boundaries (R8, R63, R64). -/
theorem rangeInBuffers_of_taken (c : Config) (legal : c.Legal) (a : BusAddr) (n : Size) (ht : Taken c a n)
    (hb : inFbuf c a.toNat = true ∨ inPbuf c a.toNat = true) : RangeInBuffers c a.toNat n.bytes := by
  obtain ⟨⟨hf, -, -⟩, hp, -, -⟩ := legal
  obtain ⟨haligned, -⟩ := ht
  intro x h1 h2
  simp only [inFbuf_iff, inPbuf_iff] at hb ⊢
  cases n <;> simp only [Size.bytes] at haligned h2 <;> omega

/-- The memory of `t` is that of `s` after one range write inside the buffers, an empty one if nothing changed. -/
def WritesInBuffers (s t : State) : Prop :=
  ∃ a bs, t.mem = s.mem.writeRange a bs ∧ RangeInBuffers s.cfg a bs.length

theorem WritesInBuffers.of_mem_eq {s t : State} (h : t.mem = s.mem) : WritesInBuffers s t :=
  ⟨0, [], h, .empty s.cfg 0⟩

theorem writesInBuffers_payload (s : State) (lo : Nat) (bs : List Byte) (h : lo + bs.length ≤ s.cfg.pbufBytes) :
    WritesInBuffers s (writePayload lo bs s) :=
  ⟨_, bs, rfl, rangeInBuffers_payload s.cfg lo bs.length h⟩

theorem WritesInBuffers.wf {s t : State} (h : WritesInBuffers s t) (hs : s.mem.wf) : t.mem.wf := by
  obtain ⟨a, bs, hmem, -⟩ := h
  rw [hmem]
  exact Memory.wf_writeRange s.mem a bs hs

theorem WritesInBuffers.bufferBytesOnly {s t : State} (h : WritesInBuffers s t) (hcfg : t.cfg = s.cfg)
    (hs : BufferBytesOnly s) : BufferBytesOnly t := by
  obtain ⟨a, bs, hmem, hrange⟩ := h
  intro x hx
  rw [hmem] at hx
  rw [hcfg]
  rcases Memory.mem_writeRange s.mem a bs x hx with ⟨h1, h2⟩ | hold
  · exact hrange x.1 h1 h2
  · exact hs x hold

/-- What every command and every host access keeps. Only a host's buffer write needs legal parameters to stay inside the
buffers (`rangeInBuffers_of_taken`). -/
structure InBounds (s t : State) : Prop where
  cfg : t.cfg = s.cfg
  rst : t.rst = s.rst
  mem : s.cfg.Legal → WritesInBuffers s t
  busyNotDone : (s.busy = true → s.done = false) → t.busy = true → t.done = false

/-- A change that leaves memory, BUSY and DONE alone. -/
theorem InBounds.of_same {s t : State} (hcfg : t.cfg = s.cfg) (hrst : t.rst = s.rst) (hmem : t.mem = s.mem)
    (hbusy : t.busy = s.busy) (hdone : t.done = s.done) : InBounds s t where
  cfg := hcfg
  rst := hrst
  mem _ := .of_mem_eq hmem
  busyNotDone h := by rwa [hbusy, hdone]

/-- A completion, after the command's write (R231): BUSY is 0. -/
theorem InBounds.of_complete {s u : State} (code : ErrCode) (hcfg : u.cfg = s.cfg) (hrst : u.rst = s.rst)
    (hmem : WritesInBuffers s u) : InBounds s (complete code u) where
  cfg := hcfg
  rst := hrst
  mem _ := hmem
  busyNotDone _ h := nomatch (h : false = true)

/-- A completion of a command that wrote registers only. -/
theorem InBounds.of_complete_mem_eq {s u : State} (code : ErrCode) (hcfg : u.cfg = s.cfg) (hrst : u.rst = s.rst)
    (hmem : u.mem = s.mem) : InBounds s (complete code u) :=
  .of_complete code hcfg hrst (.of_mem_eq hmem)

/-- If the result is a next state, it is in bounds. -/
def ResultInBounds (s : State) (r : Result) : Prop := ∀ t, r = .next t → InBounds s t

theorem ResultInBounds.of_eq_next {s u : State} {r : Result} (e : r = .next u) (h : InBounds s u) :
    ResultInBounds s r := by
  rintro t rfl
  cases e
  exact h

theorem ResultInBounds.of_operandFault {s u : State} {a n : Nat} {r : Result} (h : OperandFault u a n r) :
    ResultInBounds s r := by
  rintro t rfl
  exact h.not_next.elim

/-! ### The commands -/

/-- A command that raises an error writes no buffer (R232). -/
theorem ResultInBounds.of_error {s : State} {r : Result} {code : ErrCode} (e : r = .next (complete code s)) :
    ResultInBounds s r :=
  .of_eq_next e (.of_complete_mem_eq code rfl rfl rfl)

theorem execCsumf_inBounds (s : State) : ResultInBounds s (execCsumf s) := by
  rcases execCsumf_cases s with ⟨-, e⟩ | ⟨-, ⟨f, -, -, e⟩ | hfault⟩
  · exact .of_error e
  · exact .of_eq_next e (.of_complete_mem_eq _ rfl rfl rfl)
  · exact .of_operandFault hfault

theorem execCsump_inBounds (s : State) : ResultInBounds s (execCsump s) := by
  rcases execCsump_cases s with ⟨-, e⟩ | ⟨-, ⟨p, -, -, e⟩ | hfault⟩
  · exact .of_error e
  · exact .of_eq_next e (.of_complete_mem_eq _ rfl rfl rfl)
  · exact .of_operandFault hfault

theorem execPad_inBounds (s : State) : ResultInBounds s (execPad s) := by
  rcases execPad_cases s with ⟨-, e⟩ | ⟨hn, hm, e⟩
  · exact .of_error e
  · refine .of_eq_next e (.of_complete _ rfl rfl (writesInBuffers_payload s _ _ ?_))
    rw [length_zeros]
    omega

theorem execEnc_inBounds (s : State) : ResultInBounds s (execEnc s) := by
  rcases execEnc_cases s with ⟨-, e⟩ | ⟨hn, -, ⟨p, hp, -, e⟩ | hfault⟩
  · exact .of_error e
  · refine .of_eq_next e (.of_complete _ rfl rfl (writesInBuffers_payload s _ _ ?_))
    rw [length_cbcE]
    omega
  · exact .of_operandFault hfault

theorem storeDecrypted_inBounds (u : Bool) (p : List Byte) (s : State) (hp : p.length ≤ s.cfg.pbufBytes) :
    ResultInBounds s (storeDecrypted u p s) := by
  have hwrite : WritesInBuffers s (writePayload 0 p s) := writesInBuffers_payload s 0 p (by omega)
  rcases storeDecrypted_cases u p s with ⟨-, e⟩ | ⟨-, -, -, e⟩ | ⟨-, -, -, e⟩
  · exact .of_eq_next e (.of_complete _ rfl rfl hwrite)
  · exact .of_eq_next e (.of_complete _ rfl rfl hwrite)
  · exact .of_error e

theorem execDec_inBounds (u : Bool) (s : State) : ResultInBounds s (execDec u s) := by
  rcases execDec_cases u s with ⟨-, e⟩ | ⟨hn, -, ⟨c, hc, -, e⟩ | hfault⟩
  · exact .of_error e
  · rw [e]
    refine storeDecrypted_inBounds u _ s ?_
    rw [length_cbcD _ _ _ (length_ivBytes s)]
    omega
  · exact .of_operandFault hfault

@[simp] theorem buildState_cfg (a : Bool) (p : List Byte) (s : State) : (buildState a p s).cfg = s.cfg := by
  simp only [buildState, writeFrame_cfg]

@[simp] theorem buildState_rst (a : Bool) (p : List Byte) (s : State) : (buildState a p s).rst = s.rst := by
  simp only [buildState, writeFrame_rst]

@[simp] theorem buildState_mem (a : Bool) (p : List Byte) (s : State) :
    (buildState a p s).mem = s.mem.writeRange fbufBase (buildFrame a p s) := by
  simp only [buildState, writeFrame_mem]

theorem execBuild_inBounds (a : Bool) (s : State) : ResultInBounds s (execBuild a s) := by
  rcases execBuild_cases a s with ⟨-, e⟩ | ⟨-, hfits, ⟨p, hp, -, e⟩ | hfault⟩
  · exact .of_error e
  · have hlen : (buildFrame a p s).length ≤ s.cfg.fbufBytes := by rwa [length_buildFrame, hp]
    have hwrite : WritesInBuffers s (buildState a p s) :=
      ⟨fbufBase, buildFrame a p s, buildState_mem a p s, rangeInBuffers_frame s.cfg _ hlen⟩
    exact .of_eq_next e (.of_complete .noError (buildState_cfg a p s) (buildState_rst a p s) hwrite)
  · exact .of_operandFault hfault

theorem execValidate_inBounds (s : State) : ResultInBounds s (execValidate s) := by
  rcases execValidate_cases s with ⟨-, e⟩ | ⟨-, -, ⟨f, -, -, e⟩ | hfault⟩
  · exact .of_eq_next e (.of_complete_mem_eq _ rfl rfl rfl)
  · exact .of_eq_next e (.of_complete_mem_eq _ rfl rfl rfl)
  · exact .of_operandFault hfault

theorem execParse_inBounds (s : State) : ResultInBounds s (execParse s) := by
  rcases execParse_cases s with ⟨-, e⟩ | ⟨-, -, hfits, ⟨h, p, -, -, hp, -, e⟩ | hfault | hfault⟩
  · exact .of_error e
  · exact .of_eq_next e (.of_complete _ rfl rfl ⟨_, p, rfl, rangeInBuffers_payload s.cfg 0 _ (by omega)⟩)
  · exact .of_operandFault hfault
  · exact .of_operandFault hfault

theorem execAuthkey_inBounds (s : State) : ResultInBounds s (execAuthkey s) := by
  rcases execAuthkey_cases s with ⟨-, e⟩ | ⟨-, -, ⟨p, -, -, e⟩ | hfault⟩
  · exact .of_error e
  · exact .of_eq_next e (.of_complete_mem_eq _ rfl rfl rfl)
  · exact .of_operandFault hfault

theorem exec_inBounds (i : Instr) (s : State) : ResultInBounds s (exec i s) := by
  cases i with
  | nop => exact .of_eq_next (execNop_eq s) (.of_complete_mem_eq _ rfl rfl rfl)
  | csumf => exact execCsumf_inBounds s
  | csump => exact execCsump_inBounds s
  | pad => exact execPad_inBounds s
  | enc => exact execEnc_inBounds s
  | dec u => exact execDec_inBounds u s
  | build a => exact execBuild_inBounds a s
  | validate => exact execValidate_inBounds s
  | parse => exact execParse_inBounds s
  | authkey => exact execAuthkey_inBounds s
  | keyrst => exact .of_eq_next (execKeyrst_eq s) (.of_complete_mem_eq _ rfl rfl rfl)

theorem engineStep_inBounds (s : State) : ResultInBounds s (engineStep s) := by
  rcases engineStep_cases s with ⟨i, -, e⟩ | ⟨-, -, e⟩
  · rw [e]
    exact exec_inBounds i s
  · exact .of_error e

/-! ### The host's accesses -/

theorem returnData_inBounds (v : Word) (s : State) : InBounds s (returnData v s) := .of_same rfl rfl rfl rfl rfl

theorem returnFree_inBounds (bits : Nat) (s : State) : InBounds s (returnFree bits s) := .of_same rfl rfl rfl rfl rfl

theorem busError_inBounds (s : State) : InBounds s (busError s) := .of_same rfl rfl rfl rfl rfl

theorem dropWrite_inBounds (s : State) : InBounds s (dropWrite s) := .of_same rfl rfl rfl rfl rfl

theorem readWindow_inBounds (o : Nat) (s : State) : InBounds s (readWindow o s) := by
  rcases readWindow_cases o s with ⟨-, e⟩ | ⟨r, -, -, -, e⟩ | ⟨r, -, -, e⟩ <;> rw [e]
  · exact returnData_inBounds 0 s
  · exact returnFree_inBounds 32 s
  · exact returnData_inBounds _ s

/-- The two registers that touch BUSY or DONE: CMD clears DONE as it sets BUSY (R230), STATUS only clears DONE (R25). -/
theorem writeReg_inBounds (d : Word) (s : State) (r : Reg) : InBounds s (writeReg d s r) := by
  cases r with
  | cmd => exact ⟨rfl, rfl, fun _ => .of_mem_eq rfl, fun _ _ => rfl⟩
  | status => exact ⟨rfl, rfl, fun _ => .of_mem_eq rfl, fun h hb => by simp [writeReg, h hb]⟩
  | _ => exact .of_same rfl rfl rfl rfl rfl

theorem writeWindow_inBounds (o : Nat) (d : Word) (s : State) : InBounds s (writeWindow o d s) := by
  rcases writeWindow_cases o d s with ⟨-, -, e⟩ | ⟨-, -, e⟩ | ⟨r, -, -, e⟩ <;> rw [e]
  · exact .of_same rfl rfl rfl rfl rfl
  · exact dropWrite_inBounds s
  · exact writeReg_inBounds d s r

theorem hostRead_inBounds (a : BusAddr) (n : Size) (s : State) : ResultInBounds s (hostRead a n s) := by
  rcases hostRead_cases a n s with ⟨-, e⟩ | ⟨-, -, -, e⟩ | ⟨-, -, ⟨-, e⟩ | ⟨-, bs, -, -, e⟩ | ⟨-, x, -, -, -, e⟩⟩
  · exact .of_eq_next e (.of_same rfl rfl rfl rfl rfl)
  · exact .of_eq_next e (readWindow_inBounds _ s)
  · exact .of_eq_next e (returnFree_inBounds _ s)
  · exact .of_eq_next e (returnData_inBounds _ s)
  · intro t h
    exact nomatch e.symm.trans h

theorem hostWrite_inBounds (a : BusAddr) (n : Size) (d : Word) (s : State) :
    ResultInBounds s (hostWrite a n d s) := by
  rcases hostWrite_cases a n d s with ⟨-, e⟩ | ⟨-, -, -, e⟩ | ⟨ht, hb, ⟨-, e⟩ | ⟨-, e⟩⟩
  · exact .of_eq_next e (busError_inBounds s)
  · exact .of_eq_next e (writeWindow_inBounds _ d s)
  · exact .of_eq_next e (dropWrite_inBounds s)
  · have hrange (legal : s.cfg.Legal) : RangeInBuffers s.cfg a.toNat (busBytes n d).length :=
      (rangeInBuffers_of_taken s.cfg legal a n ht hb).mono (length_busBytes_le n d)
    exact .of_eq_next e ⟨rfl, rfl, fun legal => ⟨_, _, rfl, hrange legal⟩, id⟩

theorem hostAccess_inBounds (acc : Access) (s : State) : ResultInBounds s (hostAccess acc s) := by
  cases acc with
  | read a n => exact hostRead_inBounds a n s
  | write a n d => exact hostWrite_inBounds a n d s

end Sys2Proof.Machine
end

section
/-! The invariant: kept by each kind of turn, so by a step (O56), and met after reset (O57). -/

namespace Sys2Proof.Machine

/-- Resetting twice is resetting once: the first reset leaves BUSY = 0, so the second keeps the buffers (R260, R262). -/
theorem resetRegisters_idem (s : State) : resetRegisters (resetRegisters s) = resetRegisters s := rfl

/-- With rst released, whatever is in bounds keeps the invariant. -/
theorem InBounds.inv {s t : State} (h : InBounds s t) (hs : Inv s) (hr : s.rst = false) : Inv t where
  legal := h.cfg ▸ hs.legal
  canonical := (h.mem hs.legal).wf hs.canonical
  inBuffers := (h.mem hs.legal).bufferBytesOnly h.cfg hs.inBuffers
  busyNotDone := h.busyNotDone hs.busyNotDone
  heldInReset ht := by
    rw [h.rst, hr] at ht
    exact nomatch ht

theorem inv_withTurns {s : State} (hs : Inv s) (ts : List Turn) : Inv (withTurns ts s) where
  legal := hs.legal
  canonical := hs.canonical
  inBuffers := hs.inBuffers
  busyNotDone := hs.busyNotDone
  heldInReset hr := congrArg (withTurns ts) (hs.heldInReset hr)

/-- The listed bytes after a reset are some of those before it. -/
theorem mem_of_mem_resetRegisters {s : State} {x : Host.Cell} (h : x ∈ (resetRegisters s).mem) : x ∈ s.mem := by
  rw [resetRegisters_mem] at h
  split at h
  · exact nomatch h
  · exact h

theorem inv_resetRegisters {s : State} (hs : Inv s) : Inv (resetRegisters s) where
  legal := hs.legal
  canonical := by
    rw [resetRegisters_mem]
    split
    · exact .nil
    · exact hs.canonical
  inBuffers x hx := hs.inBuffers x (mem_of_mem_resetRegisters hx)
  busyNotDone _ := rfl
  heldInReset _ := resetRegisters_idem s

theorem inv_setRst {s : State} (hs : Inv s) (l : Bool) : Inv (setRst l s) := by
  rcases setRst_cases l s with ⟨-, e⟩ | ⟨-, -, e⟩ <;> rw [e]
  · have h := inv_resetRegisters hs
    exact ⟨h.legal, h.canonical, h.inBuffers, h.busyNotDone, fun _ => rfl⟩
  · exact hs

theorem inv_accessUnderReset {s : State} (hs : Inv s) (acc : Access) : Inv (accessUnderReset acc s) := by
  have h := inv_resetRegisters hs
  cases acc with
  | read a n => exact ⟨h.legal, h.canonical, h.inBuffers, h.busyNotDone, fun _ => rfl⟩
  | write a n d => exact h

theorem inv_engineTurn {s t : State} (hs : Inv s) (h : engineTurn s = .next t) : Inv t := by
  rcases engineTurn_cases s with ⟨-, e⟩ | ⟨-, -, e⟩ | ⟨hr, -, e⟩ <;> rw [e] at h
  · cases h
    exact inv_resetRegisters hs
  · cases h
    exact hs
  · exact (engineStep_inBounds s t h).inv hs hr

/-- Settles O56, by what each kind of turn does (`step_cases`). -/
theorem stepKeepsInvariant : Obligations.StepKeepsInvariant := by
  intro s t hs h
  rcases step_cases s with ⟨-, e⟩ | ⟨rest, -, e⟩ | ⟨acc, rest, -, -, e⟩ | ⟨acc, rest, -, hr, e⟩ | ⟨l, rest, -, e⟩ <;>
    rw [e] at h
  · exact inv_engineTurn hs h
  · exact inv_engineTurn (inv_withTurns hs rest) h
  · cases h
    exact inv_accessUnderReset (inv_withTurns hs rest) acc
  · exact (hostAccess_inBounds acc _ t h).inv (inv_withTurns hs rest) hr
  · cases h
    exact inv_setRst (inv_withTurns hs rest) l

/-- Settles O57: the default sizes are legal, and no byte is listed. -/
theorem resetHasInvariant : Obligations.ResetHasInvariant where
  legal := by decide
  canonical := reset_mem_wf
  inBuffers _ h := nomatch h
  busyNotDone _ := rfl
  heldInReset _ := rfl

end Sys2Proof.Machine
end

section
/-! The parameters through a step, and the registers computed from them (O54). -/

namespace Sys2Proof.Machine

theorem setRst_cfg (l : Bool) (s : State) : (setRst l s).cfg = s.cfg := by
  rcases setRst_cases l s with ⟨-, e⟩ | ⟨-, -, e⟩ <;> rw [e]
  rfl

theorem accessUnderReset_cfg (acc : Access) (s : State) : (accessUnderReset acc s).cfg = s.cfg := by
  cases acc <;> rfl

theorem engineTurn_cfg {s t : State} (h : engineTurn s = .next t) : t.cfg = s.cfg := by
  rcases engineTurn_cases s with ⟨-, e⟩ | ⟨-, -, e⟩ | ⟨-, -, e⟩ <;> rw [e] at h
  · cases h
    rfl
  · cases h
    rfl
  · exact (engineStep_inBounds s t h).cfg

/-- No step changes the parameters (log 1). -/
theorem step_cfg {s t : State} (h : step s = .next t) : t.cfg = s.cfg := by
  rcases step_cases s with ⟨-, e⟩ | ⟨rest, -, e⟩ | ⟨acc, rest, -, -, e⟩ | ⟨acc, rest, -, -, e⟩ | ⟨l, rest, -, e⟩ <;>
    rw [e] at h
  · exact engineTurn_cfg h
  · exact (engineTurn_cfg h).trans (withTurns_cfg rest s)
  · cases h
    exact accessUnderReset_cfg acc _
  · exact (hostAccess_inBounds acc _ t h).cfg
  · cases h
    exact setRst_cfg l _

/-- IV0..IV3 and CAPS read the parameters only (R41, R43). -/
theorem readReg_eq_of_cfg_eq {s t : State} (h : t.cfg = s.cfg) {r : Reg} (hr : r ∈ [Reg.iv0, .iv1, .iv2, .iv3, .caps]) :
    readReg t r = readReg s r := by
  simp only [List.mem_cons, List.not_mem_nil, or_false] at hr
  rcases hr with rfl | rfl | rfl | rfl | rfl <;> simp only [readReg, ivBytes, capsWord, h]

/-- The low half of a 32-bit word made of two 16-bit numbers. -/
theorem extractLsb'_low_half (a b : Nat) :
    (BitVec.ofNat 32 (a + 65536 * b)).extractLsb' 0 16 = BitVec.ofNat 16 a := by
  apply BitVec.eq_of_toNat_eq
  simp only [BitVec.extractLsb'_toNat, BitVec.toNat_ofNat, Nat.shiftRight_zero]
  omega

/-- The high half of a 32-bit word made of two 16-bit numbers. -/
theorem extractLsb'_high_half (a b : Nat) (ha : a < 65536) :
    (BitVec.ofNat 32 (a + 65536 * b)).extractLsb' 16 16 = BitVec.ofNat 16 b := by
  apply BitVec.eq_of_toNat_eq
  simp only [BitVec.extractLsb'_toNat, BitVec.toNat_ofNat, Nat.shiftRight_eq_div_pow]
  omega

/-- Settles O54: every part is a fact about `t.cfg`, and `step_cfg` says that it is `s.cfg`. -/
theorem constantRegistersStay : Obligations.ConstantRegistersStay := by
  intro s t h
  have hcfg : t.cfg = s.cfg := step_cfg h
  have hiv : ivBytes t = s.cfg.defaultIv.toList := by rw [ivBytes, hcfg]
  refine ⟨hcfg, hiv, fun r hr => readReg_eq_of_cfg_eq hcfg hr, ?_, fun legal => ?_⟩
  · rw [← hiv]
    exact bytes_of_words (ivBytes t) (length_ivBytes t)
  · obtain ⟨⟨-, -, hf⟩, -⟩ := legal
    rw [readReg, capsWord, hcfg]
    exact ⟨extractLsb'_low_half _ _, extractLsb'_high_half _ _ (by omega)⟩

end Sys2Proof.Machine
end

section
/-! What a step with rst released runs (O5). -/

namespace Sys2Proof.Machine

/-- The engine's turn with a legal word in flight is that command (R231). -/
theorem engineTurn_eq_exec {s : State} {i : Instr} (hr : s.rst = false) (hb : s.busy = true) (hd : decode s.cmd = .ok i) :
    engineTurn s = exec i s := by
  simp [engineTurn, engineStep, hr, hb, hd]

theorem setRst_stays_released {s : State} (hr : s.rst = false) : setRst false s = s := by
  simp [setRst, hr]

/-- Settles O5: the step is its turn (`step_nil`, `step_cons`), and each turn is evaluated with rst released. -/
theorem stepRunsLatchedCommand : Obligations.StepRunsLatchedCommand := by
  intro s hr
  have engine (rest : List Turn) (h : s.turns = .engine :: rest) : step s = engineTurn (withTurns rest s) :=
    step_cons s .engine rest h
  refine ⟨step_nil s, engine, fun i hb hd _ => ⟨fun h => ?_, fun rest h => ?_⟩, fun acc rest h => ?_, fun rest h => ?_⟩
  · rw [step_nil s h, engineTurn_eq_exec hr hb hd]
  · exact (engine rest h).trans (engineTurn_eq_exec hr hb hd)
  · exact (step_cons s (.host acc) rest h).trans (hostTurn_released acc (withTurns rest s) hr)
  · have hstay : setRst false (withTurns rest s) = withTurns rest s := setRst_stays_released hr
    exact (step_cons s (.rst false) rest h).trans (congrArg Host.Outcome.next hstay)

end Sys2Proof.Machine
end

section
/-! The register map as a partial inverse: which offset belongs to which register (R22, R23). -/

namespace Sys2Proof.Machine

theorem regAt_regOffset (r : Reg) : regAt (regOffset r) = some r := by
  cases r <;> rfl

theorem regAt_eq_some_iff {o : Nat} {r : Reg} : regAt o = some r ↔ regOffset r = o := by
  constructor
  · intro h
    have hfound := List.find?_some h
    exact beq_iff_eq.mp hfound
  · rintro rfl
    exact regAt_regOffset r

theorem regAt_eq_none_iff {o : Nat} : regAt o = none ↔ ∀ r, regOffset r ≠ o := by
  simp only [Option.eq_none_iff_forall_ne_some, ne_eq, regAt_eq_some_iff]

/-- The registers end at 0x080, and the two words between CAPS and KEY0 are reserved (R23). -/
theorem regOffset_range (r : Reg) : regOffset r ≤ 0x080 ∧ regOffset r ≠ 0x038 ∧ regOffset r ≠ 0x03C := by
  cases r <;> decide

/-- On the bus a register is at its offset: the window begins at 0, and no offset exceeds 14 bits (R60, R63). -/
theorem toNat_regAddr (r : Reg) : (scriptAddr (.reg r)).toNat = regOffset r := by
  have h := (regOffset_range r).1
  rw [scriptAddr, BitVec.toNat_ofNat]
  omega

theorem eq_regAddr {a : BusAddr} {r : Reg} (h : regOffset r = a.toNat) : a = scriptAddr (.reg r) :=
  BitVec.eq_of_toNat_eq (h.symm.trans (toNat_regAddr r).symm)

/-- What the map does not take: misaligned, of the wrong size, or unmapped (R66, R67). -/
theorem untaken_cases {c : Config} {a : BusAddr} {n : Size} (h : ¬ Taken c a n) :
    a.toNat % n.bytes ≠ 0 ∨ (a.toNat < 0x100 ∧ n ≠ .word) ∨
      (0x100 ≤ a.toNat ∧ inFbuf c a.toNat = false ∧ inPbuf c a.toNat = false) := by
  simp only [Taken, not_and_or, not_or, Bool.not_eq_true] at h
  obtain haligned | ⟨hwindow, hf, hp⟩ := h
  · exact .inl haligned
  · by_cases ha : a.toNat < 0x100
    · exact .inr (.inl ⟨ha, hwindow.resolve_left (not_not_intro ha)⟩)
    · exact .inr (.inr ⟨by omega, hf, hp⟩)

end Sys2Proof.Machine
end

section
/-! What an idle read of the register window returns (O46), with the fields of the STATUS and CTRL words. -/

namespace Sys2Proof.Machine

/-- An aligned word read of the register window reads the window. -/
theorem hostRead_window {a : BusAddr} (haligned : a.toNat % 4 = 0) (ha : a.toNat < 0x100) (s : State) :
    hostRead a .word s = .next (readWindow a.toNat s) := by
  have hm : misaligned a .word = false := by simp [misaligned, Size.bytes, haligned]
  simp [hostRead, hm, region_registers _ _ ha]

theorem regOffset_aligned (r : Reg) : regOffset r % 4 = 0 := by
  cases r <;> rfl

theorem hostAccess_read_reg {s : State} (idle : s.busy = false) (r : Reg) :
    hostAccess (.read (scriptAddr (.reg r)) .word) s = .next (returnData (readReg s r) s) := by
  have haddr := toNat_regAddr r
  have hrange := (regOffset_range r).1
  have haligned := regOffset_aligned r
  calc hostRead (scriptAddr (.reg r)) .word s
      = .next (readWindow (scriptAddr (.reg r)).toNat s) := hostRead_window (by omega) (by omega) s
    _ = .next (returnData (readReg s r) s) := by simp [haddr, readWindow, regAt_regOffset, idle]

theorem hostAccess_read_reserved {a : BusAddr} (haligned : a.toNat % 4 = 0) (ha : a.toNat < 0x100)
    (hreserved : ∀ r, regOffset r ≠ a.toNat) (s : State) :
    hostAccess (.read a .word) s = .next (returnData 0 s) := by
  have hnone : regAt a.toNat = none := regAt_eq_none_iff.mpr hreserved
  calc hostRead a .word s
      = .next (readWindow a.toNat s) := hostRead_window haligned ha s
    _ = .next (returnData 0 s) := by simp only [readWindow, hnone]

/-- A bit of a word given as a number, as arithmetic on the number. -/
theorem getLsbD_ofNat_of_div_mod {n k : Nat} {b : Bool} (hk : k < 32) (h : n / 2 ^ k % 2 = b.toNat) :
    (BitVec.ofNat 32 n).getLsbD k = b := by
  rw [BitVec.getLsbD_ofNat, Nat.testBit_eq_decide_div_mod_eq, h]
  cases b <;> simp [hk]

/-- A field of a word given as a number, as arithmetic on the number. -/
theorem extractLsb'_ofNat_of_div_mod {n k w : Nat} {x : BitVec w} (h : n % 2 ^ 32 / 2 ^ k % 2 ^ w = x.toNat) :
    (BitVec.ofNat 32 n).extractLsb' k w = x := by
  apply BitVec.eq_of_toNat_eq
  rw [BitVec.extractLsb'_toNat, BitVec.toNat_ofNat, Nat.shiftRight_eq_div_pow, h]

/-- Where STATUS holds its fields, and that every other bit is 0 (R25). -/
theorem statusWord_fields (s : State) :
    (statusWord s).getLsbD 0 = s.busy ∧ (statusWord s).getLsbD 1 = s.done ∧ (statusWord s).getLsbD 2 = s.valid ∧
      (statusWord s).getLsbD 3 = false ∧ (statusWord s).extractLsb' 4 4 = errBits s.err ∧
      (statusWord s).getLsbD 8 = s.overrun ∧ (statusWord s).getLsbD 9 = s.buserr ∧
      (statusWord s).extractLsb' 10 22 = 0#22 := by
  have hbusy := s.busy.toNat_lt
  have hdone := s.done.toNat_lt
  have hvalid := s.valid.toNat_lt
  have herr := (errBits s.err).isLt
  have hoverrun := s.overrun.toNat_lt
  have hbuserr := s.buserr.toNat_lt
  unfold statusWord
  refine ⟨getLsbD_ofNat_of_div_mod (by decide) ?_, getLsbD_ofNat_of_div_mod (by decide) ?_,
    getLsbD_ofNat_of_div_mod (by decide) ?_, getLsbD_ofNat_of_div_mod (by decide) ?_,
    extractLsb'_ofNat_of_div_mod ?_, getLsbD_ofNat_of_div_mod (by decide) ?_,
    getLsbD_ofNat_of_div_mod (by decide) ?_, extractLsb'_ofNat_of_div_mod ?_⟩
  case refine_4 =>
    rw [Bool.toNat_false]
    omega
  case refine_8 =>
    rw [BitVec.toNat_ofNat]
    omega
  all_goals omega

/-- CTRL holds IE in bit 0, every other bit is 0 (R32). -/
theorem ctrlWord_fields (s : State) : (ctrlWord s).getLsbD 0 = s.ie ∧ (ctrlWord s).extractLsb' 1 31 = 0 := by
  cases h : s.ie <;> simp only [ctrlWord, h] <;> decide

/-- The registers of R23 that a read returns whole, in the order in which O46 lists them: all but STATUS and CTRL. -/
def plainRegs : List Reg :=
  [.cmd, .flen, .plen, .devtype, .tag, .seq, .macLo, .macHi, .devid, .cksum, .pcksum, .caps, .iv0, .iv1, .iv2, .iv3,
    .key0, .key1, .key2, .key3,
    .rxDevtype, .rxTag, .rxSeq, .rxMacLo, .rxMacHi, .rxDevid, .rxErrcode, .rxPcksum, .rxFcksum]

/-- Settles O46: O46's table is `readReg` at the registers' addresses, and the other offsets are no register's. -/
theorem registerReadsFollowTheMap : Obligations.RegisterReadsFollowTheMap := by
  intro s idle
  have plain : ∀ p ∈ plainRegs.map fun r => (scriptAddr (.reg r), readReg s r),
      hostAccess (.read p.1 .word) s = .next (returnData p.2 s) :=
    List.forall_mem_map.mpr fun r _ => hostAccess_read_reg idle r
  refine ⟨plain, ⟨statusWord s, hostAccess_read_reg idle .status, statusWord_fields s⟩,
    ⟨ctrlWord s, hostAccess_read_reg idle .ctrl, ctrlWord_fields s⟩, fun a haligned hreserved => ?_⟩
  have ha : a.toNat = 0x038 ∨ a.toNat = 0x03C ∨ (0x084 ≤ a.toNat ∧ a.toNat ≤ 0x0FC) := by
    rcases hreserved with rfl | rfl | hlast
    · exact .inl rfl
    · exact .inr (.inl rfl)
    · exact .inr (.inr hlast)
  refine hostAccess_read_reserved haligned (by omega) (fun r => ?_) s
  have hrange := regOffset_range r
  omega

end Sys2Proof.Machine
end

section
/-! What the engine leaves of STATUS and of the session key: no command touches OVERRUN or BUSERR, and one or two commands each
touch VALID and the key (R28, R30, R31, R40; the written columns of R96). -/

namespace Sys2Proof.Machine

/-- What a run of the decoded word `w` keeps. -/
structure CommandKeeps (w : Except Illegal Instr) (s t : State) : Prop where
  overrun : t.overrun = s.overrun
  buserr : t.buserr = s.buserr
  valid : w ≠ .ok .validate → t.valid = s.valid
  key : w ≠ .ok .authkey → w ≠ .ok .keyrst → keyBytes t = keyBytes s

/-- If the result is a next state, it keeps what a run of `w` keeps. -/
def ResultKeeps (w : Except Illegal Instr) (s : State) (r : Result) : Prop := ∀ t, r = .next t → CommandKeeps w s t

theorem ResultKeeps.of_eq_next {w : Except Illegal Instr} {s u : State} {r : Result} (e : r = .next u)
    (h : CommandKeeps w s u) : ResultKeeps w s r := by
  rintro t rfl
  cases e
  exact h

theorem ResultKeeps.of_operandFault {w : Except Illegal Instr} {s u : State} {a n : Nat} {r : Result}
    (h : OperandFault u a n r) : ResultKeeps w s r := by
  rintro t rfl
  exact h.not_next.elim

/-- A command that writes, before its completion, neither VALID nor a key register nor a sticky flag. -/
theorem ResultKeeps.of_complete {w : Except Illegal Instr} {s u : State} {r : Result} {code : ErrCode}
    (e : r = .next (complete code u)) (hoverrun : u.overrun = s.overrun) (hbuserr : u.buserr = s.buserr)
    (hvalid : u.valid = s.valid) (hkey : keyBytes u = keyBytes s) : ResultKeeps w s r :=
  .of_eq_next e ⟨hoverrun, hbuserr, fun _ => hvalid, fun _ _ => hkey⟩

theorem ResultKeeps.of_error {w : Except Illegal Instr} {s : State} {r : Result} {code : ErrCode}
    (e : r = .next (complete code s)) : ResultKeeps w s r :=
  .of_complete e rfl rfl rfl rfl

theorem execCsumf_keeps (s : State) : ResultKeeps (.ok .csumf) s (execCsumf s) := by
  rcases execCsumf_cases s with ⟨-, e⟩ | ⟨-, ⟨f, -, -, e⟩ | hfault⟩
  · exact .of_error e
  · exact .of_complete e rfl rfl rfl rfl
  · exact .of_operandFault hfault

theorem execCsump_keeps (s : State) : ResultKeeps (.ok .csump) s (execCsump s) := by
  rcases execCsump_cases s with ⟨-, e⟩ | ⟨-, ⟨p, -, -, e⟩ | hfault⟩
  · exact .of_error e
  · exact .of_complete e rfl rfl rfl rfl
  · exact .of_operandFault hfault

theorem execPad_keeps (s : State) : ResultKeeps (.ok .pad) s (execPad s) := by
  rcases execPad_cases s with ⟨-, e⟩ | ⟨-, -, e⟩
  · exact .of_error e
  · exact .of_complete e rfl rfl rfl rfl

theorem execEnc_keeps (s : State) : ResultKeeps (.ok .enc) s (execEnc s) := by
  rcases execEnc_cases s with ⟨-, e⟩ | ⟨-, -, ⟨p, -, -, e⟩ | hfault⟩
  · exact .of_error e
  · exact .of_complete e rfl rfl rfl rfl
  · exact .of_operandFault hfault

theorem storeDecrypted_keeps (u : Bool) (p : List Byte) (s : State) :
    ResultKeeps (.ok (.dec u)) s (storeDecrypted u p s) := by
  rcases storeDecrypted_cases u p s with ⟨-, e⟩ | ⟨-, -, -, e⟩ | ⟨-, -, -, e⟩
  · exact .of_complete e rfl rfl rfl rfl
  · exact .of_complete e rfl rfl rfl rfl
  · exact .of_error e

theorem execDec_keeps (u : Bool) (s : State) : ResultKeeps (.ok (.dec u)) s (execDec u s) := by
  rcases execDec_cases u s with ⟨-, e⟩ | ⟨-, -, ⟨c, -, -, e⟩ | hfault⟩
  · exact .of_error e
  · rw [e]
    exact storeDecrypted_keeps u _ s
  · exact .of_operandFault hfault

/-- BUILD writes, apart from its completion, FBUF, FLEN, CKSUM, PCKSUM and SEQ (R96, R130). -/
theorem buildState_keeps (a : Bool) (p : List Byte) (s : State) :
    (buildState a p s).overrun = s.overrun ∧ (buildState a p s).buserr = s.buserr ∧
      (buildState a p s).valid = s.valid ∧ keyBytes (buildState a p s) = keyBytes s := by
  simp only [keyBytes, buildState, writeFrame_overrun, writeFrame_buserr, writeFrame_valid, writeFrame_key0,
    writeFrame_key1, writeFrame_key2, writeFrame_key3, and_self]

theorem execBuild_keeps (a : Bool) (s : State) : ResultKeeps (.ok (.build a)) s (execBuild a s) := by
  rcases execBuild_cases a s with ⟨-, e⟩ | ⟨-, -, ⟨p, -, -, e⟩ | hfault⟩
  · exact .of_error e
  · obtain ⟨hoverrun, hbuserr, hvalid, hkey⟩ := buildState_keeps a p s
    exact .of_complete e hoverrun hbuserr hvalid hkey
  · exact .of_operandFault hfault

/-- VALIDATE writes VALID, with LENGTH too (R140). -/
theorem execValidate_keeps (s : State) : ResultKeeps (.ok .validate) s (execValidate s) := by
  rcases execValidate_cases s with ⟨-, e⟩ | ⟨-, -, ⟨f, -, -, e⟩ | hfault⟩
  · exact .of_eq_next e ⟨rfl, rfl, fun hne => absurd rfl hne, fun _ _ => rfl⟩
  · exact .of_eq_next e ⟨rfl, rfl, fun hne => absurd rfl hne, fun _ _ => rfl⟩
  · exact .of_operandFault hfault

theorem execParse_keeps (s : State) : ResultKeeps (.ok .parse) s (execParse s) := by
  rcases execParse_cases s with ⟨-, e⟩ | ⟨-, -, -, ⟨h, p, -, -, -, -, e⟩ | hfault | hfault⟩
  · exact .of_error e
  · exact .of_complete e rfl rfl rfl rfl
  · exact .of_operandFault hfault
  · exact .of_operandFault hfault

/-- AUTHKEY writes the key (R213). -/
theorem execAuthkey_keeps (s : State) : ResultKeeps (.ok .authkey) s (execAuthkey s) := by
  rcases execAuthkey_cases s with ⟨-, e⟩ | ⟨-, -, ⟨p, -, -, e⟩ | hfault⟩
  · exact .of_error e
  · exact .of_eq_next e ⟨rfl, rfl, fun _ => rfl, fun hne _ => absurd rfl hne⟩
  · exact .of_operandFault hfault

/-- KEYRST writes the key (R216). -/
theorem execKeyrst_keeps (s : State) : ResultKeeps (.ok .keyrst) s (execKeyrst s) :=
  .of_eq_next (execKeyrst_eq s) ⟨rfl, rfl, fun _ => rfl, fun _ hne => absurd rfl hne⟩

theorem exec_keeps (i : Instr) (s : State) : ResultKeeps (.ok i) s (exec i s) := by
  cases i with
  | nop => exact .of_error (execNop_eq s)
  | csumf => exact execCsumf_keeps s
  | csump => exact execCsump_keeps s
  | pad => exact execPad_keeps s
  | enc => exact execEnc_keeps s
  | dec u => exact execDec_keeps u s
  | build a => exact execBuild_keeps a s
  | validate => exact execValidate_keeps s
  | parse => exact execParse_keeps s
  | authkey => exact execAuthkey_keeps s
  | keyrst => exact execKeyrst_keeps s

/-- An illegal word keeps them all (R236). -/
theorem engineStep_keeps (s : State) : ResultKeeps (decode s.cmd) s (engineStep s) := by
  rcases engineStep_cases s with ⟨i, hd, e⟩ | ⟨-, -, e⟩
  · rw [hd, e]
    exact exec_keeps i s
  · exact .of_error e

end Sys2Proof.Machine
end

section
/-! What a host access leaves, as an equation for the next state, and what a register write leaves of STATUS and the key. -/

namespace Sys2Proof.Machine

/-- A host read changes read data, the count of free values, and BUSERR if the map does not take it (R66, R67, R281). -/
theorem hostRead_next {a : BusAddr} {n : Size} {s t : State} (h : hostRead a n s = .next t) :
    (∃ v c, t = { s with rdata := v, freeCount := c }) ∨ (¬ Taken s.cfg a n ∧ t = returnData 0 (busError s)) := by
  rcases hostRead_cases a n s with ⟨hno, e⟩ | ⟨-, -, -, e⟩ | ⟨-, -, ⟨-, e⟩ | ⟨-, bs, -, -, e⟩ | ⟨-, x, -, -, -, e⟩⟩ <;>
    rw [e] at h <;> cases h
  · exact .inr ⟨hno, rfl⟩
  · rcases readWindow_cases a.toNat s with ⟨-, e⟩ | ⟨r, -, -, -, e⟩ | ⟨r, -, -, e⟩ <;> rw [e] <;>
      exact .inl ⟨_, _, rfl⟩
  · exact .inl ⟨_, _, rfl⟩
  · exact .inl ⟨_, _, rfl⟩

/-- STATUS and CTRL are no targets of a dropped write (R280). -/
theorem not_statusOrCtrl_of_not_writableWhileBusy {a : BusAddr}
    (h : regAt a.toNat = none ∨ ∃ r, regAt a.toNat = some r ∧ writableWhileBusy r = false) :
    a ≠ 0x004#14 ∧ a ≠ 0x008#14 := by
  constructor <;> rintro rfl <;> exact absurd h (by decide)

/-- All a host write can leave: BUSERR for one the map does not take (R66, R67), OVERRUN for one dropped while BUSY = 1 (R280),
a register written, or the memory written, if at all (a reserved offset ignores the write, R22). -/
theorem hostWrite_next {a : BusAddr} {n : Size} {d : Word} {s t : State} (h : hostWrite a n d s = .next t) :
    (¬ Taken s.cfg a n ∧ t = busError s) ∨
    (Taken s.cfg a n ∧ s.busy = true ∧ a ≠ 0x004#14 ∧ a ≠ 0x008#14 ∧ t = dropWrite s) ∨
    (∃ r, n = .word ∧ a = scriptAddr (.reg r) ∧ (s.busy = false ∨ writableWhileBusy r = true) ∧ t = writeReg d s r) ∨
    (∃ m, t = { s with mem := m }) := by
  rcases hostWrite_cases a n d s with ⟨hno, e⟩ | ⟨ht, -, hn, e⟩ | ⟨ht, hbuf, ⟨hb, e⟩ | ⟨-, e⟩⟩ <;>
    rw [e] at h <;> cases h
  · exact .inl ⟨hno, rfl⟩
  · rcases writeWindow_cases a.toNat d s with ⟨-, -, e⟩ | ⟨hr, hb, e⟩ | ⟨r, hr, hw, e⟩
    · exact .inr (.inr (.inr ⟨s.mem, e⟩))
    · obtain ⟨h4, h8⟩ := not_statusOrCtrl_of_not_writableWhileBusy hr
      exact .inr (.inl ⟨ht, hb, h4, h8, e⟩)
    · exact .inr (.inr (.inl ⟨r, hn, eq_regAddr (regAt_eq_some_iff.mp hr), hw, e⟩))
  · simp only [inFbuf_iff, inPbuf_iff] at hbuf
    have houtside (b : BusAddr) (hb : b.toNat < 0x1000) : a ≠ b := by
      rintro rfl
      omega
    exact .inr (.inl ⟨ht, hb, houtside _ (by decide), houtside _ (by decide), rfl⟩)
  · exact .inr (.inr (.inr ⟨_, rfl⟩))

@[simp] theorem writeReg_valid (d : Word) (s : State) (r : Reg) : (writeReg d s r).valid = s.valid := by
  cases r <;> rfl

/-- A W1C field that a write changes was 1, and its bit of the data is 1 (R25). -/
theorem cleared_of_ne {b c : Bool} (h : (b && !c) ≠ b) : (b && !c) = false ∧ c = true := by
  cases c with
  | false => exact absurd (Bool.and_true b) h
  | true => exact ⟨Bool.and_false b, rfl⟩

/-- Only a write to STATUS changes OVERRUN, and it clears it (R25, R30). -/
theorem writeReg_overrun_ne {d : Word} {s : State} {r : Reg} (h : (writeReg d s r).overrun ≠ s.overrun) :
    r = .status ∧ (writeReg d s r).overrun = false ∧ d.getLsbD 8 = true := by
  cases r with
  | status => exact ⟨rfl, cleared_of_ne h⟩
  | _ => exact absurd rfl h

/-- Only a write to STATUS changes BUSERR, and it clears it (R25, R31). -/
theorem writeReg_buserr_ne {d : Word} {s : State} {r : Reg} (h : (writeReg d s r).buserr ≠ s.buserr) :
    r = .status ∧ (writeReg d s r).buserr = false ∧ d.getLsbD 9 = true := by
  cases r with
  | status => exact ⟨rfl, cleared_of_ne h⟩
  | _ => exact absurd rfl h

/-- Only KEY0..KEY3 take a write of the key (R40), and not while BUSY = 1 (R280). -/
theorem writeReg_keyBytes_ne {d : Word} {s : State} {r : Reg} (h : keyBytes (writeReg d s r) ≠ keyBytes s) :
    writableWhileBusy r = false ∧ (scriptAddr (.reg r) = 0x040#14 ∨ scriptAddr (.reg r) = 0x044#14 ∨
      scriptAddr (.reg r) = 0x048#14 ∨ scriptAddr (.reg r) = 0x04C#14) := by
  cases r with
  | key0 | key1 | key2 | key3 => decide
  | _ => exact absurd rfl h

/-! ### Which access changes what -/

/-- No host access changes VALID (R28). -/
theorem hostAccess_valid {acc : Access} {s t : State} (h : hostAccess acc s = .next t) : t.valid = s.valid := by
  cases acc with
  | read a n => rcases hostRead_next h with ⟨v, c, rfl⟩ | ⟨-, rfl⟩ <;> rfl
  | write a n d =>
    rcases hostWrite_next h with ⟨-, rfl⟩ | ⟨-, -, -, -, rfl⟩ | ⟨r, -, -, -, rfl⟩ | ⟨m, rfl⟩
    · rfl
    · rfl
    · exact writeReg_valid d s r
    · rfl

/-- The key is changed by a word write to one of its registers while BUSY = 0 (R40, R280). -/
theorem hostAccess_keyBytes_ne {acc : Access} {s t : State} (h : hostAccess acc s = .next t)
    (hne : keyBytes t ≠ keyBytes s) :
    s.busy = false ∧ ∃ a d, acc = .write a .word d ∧
      (a = 0x040#14 ∨ a = 0x044#14 ∨ a = 0x048#14 ∨ a = 0x04C#14) := by
  cases acc with
  | read a n => rcases hostRead_next h with ⟨v, c, rfl⟩ | ⟨-, rfl⟩ <;> exact absurd rfl hne
  | write a n d =>
    rcases hostWrite_next h with ⟨-, rfl⟩ | ⟨-, -, -, -, rfl⟩ | ⟨r, rfl, rfl, hw, rfl⟩ | ⟨m, rfl⟩
    · exact absurd rfl hne
    · exact absurd rfl hne
    · obtain ⟨hbusy, haddr⟩ := writeReg_keyBytes_ne hne
      rw [hbusy] at hw
      exact ⟨hw.resolve_right Bool.false_ne_true, _, d, rfl, haddr⟩
    · exact absurd rfl hne

/-- OVERRUN is cleared by a write to STATUS and set by a dropped write (R30, R280). -/
theorem hostAccess_overrun_ne {acc : Access} {s t : State} (h : hostAccess acc s = .next t)
    (hne : t.overrun ≠ s.overrun) :
    (t.overrun = false ∧ ∃ d, acc = .write 0x004#14 .word d ∧ d.getLsbD 8 = true) ∨
    (t.overrun = true ∧ s.busy = true ∧
      ∃ a n d, acc = .write a n d ∧ a ≠ 0x004#14 ∧ a ≠ 0x008#14 ∧ Taken s.cfg a n) := by
  cases acc with
  | read a n => rcases hostRead_next h with ⟨v, c, rfl⟩ | ⟨-, rfl⟩ <;> exact absurd rfl hne
  | write a n d =>
    rcases hostWrite_next h with ⟨-, rfl⟩ | ⟨ht, hb, h4, h8, rfl⟩ | ⟨r, rfl, rfl, -, rfl⟩ | ⟨m, rfl⟩
    · exact absurd rfl hne
    · exact .inr ⟨rfl, hb, a, n, d, rfl, h4, h8, ht⟩
    · obtain ⟨rfl, hclear, hbit⟩ := writeReg_overrun_ne hne
      exact .inl ⟨hclear, d, rfl, hbit⟩
    · exact absurd rfl hne

/-- BUSERR is cleared by a write to STATUS and set by an access the map does not take (R31, R66, R67). -/
theorem hostAccess_buserr_ne {acc : Access} {s t : State} (h : hostAccess acc s = .next t)
    (hne : t.buserr ≠ s.buserr) :
    (t.buserr = false ∧ ∃ d, acc = .write 0x004#14 .word d ∧ d.getLsbD 9 = true) ∨
    (t.buserr = true ∧ ∃ a n, (acc = .read a n ∨ ∃ d, acc = .write a n d) ∧ ¬ Taken s.cfg a n) := by
  cases acc with
  | read a n =>
    rcases hostRead_next h with ⟨v, c, rfl⟩ | ⟨hno, rfl⟩
    · exact absurd rfl hne
    · exact .inr ⟨rfl, a, n, .inl rfl, hno⟩
  | write a n d =>
    rcases hostWrite_next h with ⟨hno, rfl⟩ | ⟨-, -, -, -, rfl⟩ | ⟨r, rfl, rfl, -, rfl⟩ | ⟨m, rfl⟩
    · exact .inr ⟨rfl, a, n, .inr ⟨d, rfl⟩, hno⟩
    · exact absurd rfl hne
    · obtain ⟨rfl, hclear, hbit⟩ := writeReg_buserr_ne hne
      exact .inl ⟨hclear, d, rfl, hbit⟩
    · exact absurd rfl hne

end Sys2Proof.Machine
end

section
/-! Who writes VALID, the session key, OVERRUN and BUSERR (O51, O52, O55). -/

namespace Sys2Proof.Machine

/-- The step is a reset step: `rst` is asserted, or becomes so (R260). -/
def ResetStep (s : State) : Prop := s.rst = true ∨ ∃ rest, s.turns = .rst true :: rest

/-- The engine moves: its turn, or none is left (R276, log 7). -/
def EngineMoves (s : State) : Prop := s.turns = [] ∨ ∃ rest, s.turns = .engine :: rest

/-- A step in which the engine moves is its turn. -/
theorem EngineMoves.step_eq {s : State} (h : EngineMoves s) : ∃ ts, step s = engineTurn (withTurns ts s) := by
  rcases h with h | ⟨rest, h⟩
  · exact ⟨s.turns, step_nil s h⟩
  · exact ⟨rest, step_cons s .engine rest h⟩

/-- What the engine's turn leaves: the block in reset, what the engine's step gives, or the state as it was. -/
theorem engineTurn_next {s t : State} (h : engineTurn s = .next t) :
    s.rst = true ∨ (s.busy = true ∧ engineStep s = .next t) ∨ t = s := by
  rcases engineTurn_cases s with ⟨hr, -⟩ | ⟨-, -, e⟩ | ⟨-, hb, e⟩
  · exact .inl hr
  · cases e.symm.trans h
    exact .inr (.inr rfl)
  · exact .inr (.inl ⟨hb, e.symm.trans h⟩)

/-- Who can change the block in a step: reset, the engine with BUSY = 1, or the host; otherwise only the turn is used up. -/
theorem step_agents {s t : State} (h : step s = .next t) :
    ResetStep s ∨
    (EngineMoves s ∧ s.busy = true ∧ ∃ ts, engineStep (withTurns ts s) = .next t) ∨
    (∃ acc rest, s.turns = .host acc :: rest ∧ hostAccess acc (withTurns rest s) = .next t) ∨
    (∃ ts, t = withTurns ts s) := by
  by_cases hmoves : EngineMoves s
  · obtain ⟨ts, e⟩ := hmoves.step_eq
    rcases engineTurn_next (e.symm.trans h) with hr | ⟨hb, he⟩ | hsame
    · exact .inl (.inl hr)
    · exact .inr (.inl ⟨hmoves, hb, ts, he⟩)
    · exact .inr (.inr (.inr ⟨ts, hsame⟩))
  rcases step_cases s with ⟨hturns, -⟩ | ⟨rest, hturns, -⟩ | ⟨-, -, -, hr, -⟩ | ⟨acc, rest, hturns, -, e⟩ |
    ⟨l, rest, hturns, e⟩
  · exact absurd (.inl hturns) hmoves
  · exact absurd (.inr ⟨rest, hturns⟩) hmoves
  · exact .inl (.inl hr)
  · exact .inr (.inr (.inl ⟨acc, rest, hturns, e.symm.trans h⟩))
  · cases e.symm.trans h
    rcases setRst_cases l (withTurns rest s) with ⟨rfl | hr, -⟩ | ⟨-, -, hsame⟩
    · exact .inl (.inr ⟨rest, hturns⟩)
    · exact .inl (.inl hr)
    · exact .inr (.inr (.inr ⟨rest, hsame⟩))

/-- A VALIDATE that raises LENGTH clears VALID (R28, R140). -/
theorem execValidate_length_clears {s t : State} (h : execValidate s = .next t) (herr : t.err = .length) :
    t.valid = false := by
  rcases execValidate_cases s with ⟨-, e⟩ | ⟨-, -, ⟨f, -, -, e⟩ | hfault⟩
  · cases e.symm.trans h
    rfl
  · cases e.symm.trans h
    exact nomatch herr
  · rw [h] at hfault
    exact hfault.not_next.elim

/-- Settles O51, by who can change the block in a step (`step_agents`). -/
theorem onlyValidateWritesValid : Obligations.OnlyValidateWritesValid := by
  refine ⟨fun s t h hne => ?_, fun s t => execValidate_length_clears, rfl⟩
  rcases step_agents h with hreset | ⟨hmoves, hbusy, ts, he⟩ | ⟨acc, rest, -, ha⟩ | ⟨ts, rfl⟩
  · exact .inl hreset
  · have keeps : CommandKeeps (decode s.cmd) (withTurns ts s) t := engineStep_keeps _ t he
    exact .inr ⟨hmoves, hbusy, by_contra fun hother => hne (keeps.valid hother)⟩
  · exact absurd (hostAccess_valid ha) hne
  · exact absurd rfl hne

/-- Settles O52, by who can change the block in a step (`step_agents`). -/
theorem keyWriters : Obligations.KeyWriters := by
  intro s t h hne
  rcases step_agents h with hreset | ⟨hmoves, hbusy, ts, he⟩ | ⟨acc, rest, hturns, ha⟩ | ⟨ts, rfl⟩
  · exact .inl hreset
  · have keeps : CommandKeeps (decode s.cmd) (withTurns ts s) t := engineStep_keeps _ t he
    refine .inr (.inl ⟨hmoves, hbusy, by_contra fun hother => ?_⟩)
    obtain ⟨hnotAuthkey, hnotKeyrst⟩ := not_or.mp hother
    exact hne (keeps.key hnotAuthkey hnotKeyrst)
  · obtain ⟨hidle, a, d, rfl, haddr⟩ := hostAccess_keyBytes_ne ha hne
    exact .inr (.inr ⟨hidle, a, d, rest, hturns, haddr⟩)
  · exact absurd rfl hne

/-- Settles O55, by who can change the block in a step (`step_agents`): of the three only reset and the host touch the flags. -/
theorem stickyFlagsWriters : Obligations.StickyFlagsWriters := by
  intro s t h
  rcases step_agents h with hreset | ⟨-, -, ts, he⟩ | ⟨acc, rest, hturns, ha⟩ | ⟨ts, rfl⟩
  · exact ⟨fun _ => .inl hreset, fun _ => .inl hreset⟩
  · have keeps := engineStep_keeps _ t he
    exact ⟨absurd keeps.overrun, absurd keeps.buserr⟩
  · refine ⟨fun hne => .inr ?_, fun hne => .inr ?_⟩
    · rcases hostAccess_overrun_ne ha hne with ⟨hclear, d, rfl, hbit⟩ | ⟨hset, hbusy, a, n, d, rfl, h4, h8, haligned, hmap⟩
      · exact .inl ⟨hclear, d, rest, hturns, hbit⟩
      · exact .inr ⟨hset, hbusy, a, n, d, rest, hturns, h4, h8, haligned, hmap⟩
    · rcases hostAccess_buserr_ne ha hne with ⟨hclear, d, rfl, hbit⟩ | ⟨hset, a, n, hacc, hno⟩
      · exact .inl ⟨hclear, d, rest, hturns, hbit⟩
      · refine .inr ⟨hset, a, n, rest, ?_, untaken_cases hno⟩
        rcases hacc with rfl | ⟨d, rfl⟩
        · exact .inl hturns
        · exact .inr ⟨d, hturns⟩
  · exact ⟨absurd rfl, absurd rfl⟩

end Sys2Proof.Machine
end

section
/-! What the address map does not take (O45): the access sets BUSERR, and nothing else but a read's data. -/

namespace Sys2Proof.Machine

/-- The converse of `untaken_cases`, over the bounds of the buffers (R66, R67). -/
theorem not_taken_of_untaken {c : Config} {a : BusAddr} {n : Size}
    (h : a.toNat % n.bytes ≠ 0 ∨ (a.toNat < 0x100 ∧ n ≠ .word) ∨
      (0x100 ≤ a.toNat ∧ ¬ (0x1000 ≤ a.toNat ∧ a.toNat < 0x1000 + c.fbufBytes) ∧
        ¬ (0x2000 ≤ a.toNat ∧ a.toNat < 0x2000 + c.pbufBytes))) : ¬ Taken c a n := by
  rintro ⟨haligned, hmapped⟩
  rw [inFbuf_iff, inPbuf_iff] at hmapped
  rcases h with hmisaligned | ⟨hwindow, hsize⟩ | ⟨hwindow, hfbuf, hpbuf⟩
  · exact hmisaligned haligned
  · rcases hmapped with ⟨-, hword⟩ | hbuf | hbuf
    · exact hsize hword
    all_goals omega
  · rcases hmapped with ⟨hlt, -⟩ | hbuf | hbuf
    · omega
    · exact hfbuf hbuf
    · exact hpbuf hbuf

theorem hostRead_of_not_taken {a : BusAddr} {n : Size} {s : State} (h : ¬ Taken s.cfg a n) :
    hostRead a n s = .next (returnData 0 (busError s)) := by
  rcases hostRead_cases a n s with ⟨-, e⟩ | ⟨ht, -⟩ | ⟨ht, -⟩
  · exact e
  · exact absurd ht h
  · exact absurd ht h

theorem hostWrite_of_not_taken {a : BusAddr} {n : Size} {s : State} (h : ¬ Taken s.cfg a n) (d : Word) :
    hostWrite a n d s = .next (busError s) := by
  rcases hostWrite_cases a n d s with ⟨-, e⟩ | ⟨ht, -⟩ | ⟨ht, -⟩
  · exact e
  · exact absurd ht h
  · exact absurd ht h

/-- Settles O45: each of its three cases is an access the address map does not take. -/
theorem untakenAccessSetsBuserr : Obligations.UntakenAccessSetsBuserr := by
  intro s a n huntaken
  have hno : ¬ Taken s.cfg a n := not_taken_of_untaken huntaken
  exact ⟨hostRead_of_not_taken hno, hostWrite_of_not_taken hno⟩

end Sys2Proof.Machine
end

section
/-! What an idle write to the register window does (O47). -/

namespace Sys2Proof.Machine

/-- An aligned word write to the register window writes the window. -/
theorem hostWrite_window {a : BusAddr} (haligned : a.toNat % 4 = 0) (ha : a.toNat < 0x100) (d : Word) (s : State) :
    hostWrite a .word d s = .next (writeWindow a.toNat d s) := by
  have hm : misaligned a .word = false := by simp [misaligned, Size.bytes, haligned]
  simp [hostWrite, hm, region_registers _ _ ha]

theorem hostAccess_write_reg {s : State} (idle : s.busy = false) (d : Word) (r : Reg) :
    hostAccess (.write (scriptAddr (.reg r)) .word d) s = .next (writeReg d s r) := by
  have haddr := toNat_regAddr r
  have hrange := (regOffset_range r).1
  have haligned := regOffset_aligned r
  calc hostWrite (scriptAddr (.reg r)) .word d s
      = .next (writeWindow (scriptAddr (.reg r)).toNat d s) := hostWrite_window (by omega) (by omega) d s
    _ = .next (writeReg d s r) := by simp [haddr, writeWindow, regAt_regOffset, idle]

/-- The offsets of the registers a host write can change: CMD, STATUS, CTRL and the RW registers (R23). -/
def writableOffsets : List Nat :=
  [0x000, 0x004, 0x008, 0x00C, 0x010, 0x014, 0x018, 0x01C, 0x020, 0x024, 0x028, 0x040, 0x044, 0x048, 0x04C]

/-- A read-only register ignores a write (R22). -/
theorem writeReg_of_readOnly {r : Reg} (h : regOffset r ∉ writableOffsets) (d : Word) (s : State) :
    writeReg d s r = s := by
  cases r with
  | cmd | status | ctrl | flen | plen | devtype | tag | seq | macLo | macHi | devid | key0 | key1 | key2 | key3 =>
    exact absurd (by decide) h
  | _ => rfl

/-- A read-only register and a reserved offset ignore a write (R22, R65). -/
theorem writeWindow_of_not_writable {o : Nat} {s : State} (idle : s.busy = false) (h : o ∉ writableOffsets) (d : Word) :
    writeWindow o d s = s := by
  rcases writeWindow_cases o d s with ⟨-, -, e⟩ | ⟨-, hbusy, -⟩ | ⟨r, hr, -, e⟩
  · exact e
  · rw [idle] at hbusy
    cases hbusy
  · rw [← regAt_eq_some_iff.mp hr] at h
    exact e.trans (writeReg_of_readOnly h d s)

/-- Settles O47: register by register what `writeReg` does, and nothing at the other offsets. -/
theorem registerWritesFollowTheMap : Obligations.RegisterWritesFollowTheMap := by
  intro s d idle
  have hreg := hostAccess_write_reg idle d
  refine ⟨hreg .status, hreg .ctrl, hreg .flen, hreg .plen, hreg .devtype, hreg .tag, hreg .seq, hreg .macLo,
    hreg .macHi, hreg .devid, hreg .key0, hreg .key1, hreg .key2, hreg .key3, fun a ha haligned hother => ?_⟩
  calc hostWrite a .word d s
      = .next (writeWindow a.toNat d s) := hostWrite_window haligned ha d s
    _ = .next s := by rw [writeWindow_of_not_writable idle hother]

end Sys2Proof.Machine
end

section
/-! Reads leave no trace but BUSERR, and an idle read repeated answers the same (O50). -/

namespace Sys2Proof.Machine

/-- A read's outcome does not depend on the data of the read before it: `rdata` is written and never looked at. -/
theorem hostRead_returnData (a : BusAddr) (n : Size) (v : Word) (s : State) :
    hostRead a n (returnData v s) = hostRead a n s := rfl

/-- While BUSY = 0 a read draws no free value (R281): what it leaves differs in the read data, and BUSERR for an access the
map does not take. -/
theorem hostRead_idle_next {a : BusAddr} {n : Size} {s t : State} (idle : s.busy = false)
    (h : hostRead a n s = .next t) :
    (∃ v, t = returnData v s) ∨ (¬ Taken s.cfg a n ∧ t = returnData 0 (busError s)) := by
  have hnot : s.busy ≠ true := by simp [idle]
  rcases hostRead_cases a n s with
    ⟨hno, e⟩ | ⟨-, -, -, e⟩ | ⟨-, -, ⟨hbusy, -⟩ | ⟨-, bs, -, -, e⟩ | ⟨-, x, -, -, -, e⟩⟩
  · exact .inr ⟨hno, by simpa [e] using h.symm⟩
  · obtain rfl : readWindow a.toNat s = t := by simpa [e] using h
    rcases readWindow_cases a.toNat s with ⟨-, e⟩ | ⟨r, -, hbusy, -⟩ | ⟨r, -, -, e⟩
    · exact .inl ⟨0, e⟩
    · exact absurd hbusy hnot
    · exact .inl ⟨readReg s r, e⟩
  · exact absurd hbusy hnot
  · exact .inl ⟨busValue bs, by simpa [e] using h.symm⟩
  · exact nomatch e.symm.trans h

/-- An idle read is idempotent (R69). -/
theorem hostRead_idempotent {a : BusAddr} {n : Size} {s t : State} (idle : s.busy = false)
    (h : hostRead a n s = .next t) : hostRead a n t = .next t := by
  rcases hostRead_idle_next idle h with ⟨v, rfl⟩ | ⟨hno, rfl⟩
  · exact (hostRead_returnData a n v s).trans h
  · exact hostRead_of_not_taken hno

/-- Settles O50: what a read leaves is an equation for the next state, and idle it has one form the same read reproduces. -/
theorem readsHaveNoSideEffect : Obligations.ReadsHaveNoSideEffect := by
  intro s t a n h
  refine ⟨?frame, ?buserr, fun idle => ⟨?count, hostRead_idempotent idle h⟩⟩
  case frame => rcases hostRead_next h with ⟨v, c, rfl⟩ | ⟨-, rfl⟩ <;> rfl
  case buserr =>
    intro hset
    rcases hostRead_next h with ⟨v, c, rfl⟩ | ⟨-, rfl⟩
    · exact hset
    · rfl
  case count => rcases hostRead_idle_next idle h with ⟨v, rfl⟩ | ⟨-, rfl⟩ <;> rfl

end Sys2Proof.Machine
end

section
/-! What an idle access to a buffer moves (O44): its n bytes, all in one buffer, lowest address first. -/

namespace Sys2Proof.Machine

/-- An aligned access that begins in a range of whole 16-byte blocks ends in it (R64). -/
theorem aligned_access_in_range {base len a k : Nat} {n : Size} (hbase : base % 16 = 0) (hlen : len % 16 = 0)
    (haligned : a % n.bytes = 0) (hk : k < n.bytes) (ha : base ≤ a ∧ a < base + len) :
    base ≤ a + k ∧ a + k < base + len := by
  cases n <;> simp only [Size.bytes] at haligned hk <;> omega

theorem length_busBytes (n : Size) (d : Word) : (busBytes n d).length = n.bytes := by
  cases n <;> rfl

/-- Byte k of the data is its bits 8k+7..8k (R64). -/
theorem byteAt_bytesLE32 (d : Word) {k : Nat} (hk : k < 4) : byteAt (bytesLE32 d) k = d.extractLsb' (8 * k) 8 := by
  interval_cases k <;> rfl

theorem byteAt_busBytes {n : Size} (d : Word) {k : Nat} (hk : k < n.bytes) :
    byteAt (busBytes n d) k = d.extractLsb' (8 * k) 8 := by
  have hn : n.bytes ≤ 4 := by cases n <;> decide
  calc byteAt (busBytes n d) k
      = byteAt (bytesLE32 d) k := byteAt_take _ _ _ hk
    _ = d.extractLsb' (8 * k) 8 := byteAt_bytesLE32 d (by omega)

/-- The value of at most four bytes, the first the least significant (R11, R62). -/
theorem busValue_eq_foldr (bs : List Byte) (h : bs.length ≤ 4) :
    busValue bs = BitVec.ofNat 32 (bs.foldr (fun b v => b.toNat + 256 * v) 0) := by
  refine congrArg (BitVec.ofNat 32) ?_
  match bs, h with
  | [], _ | [a], _ | [a, b], _ | [a, b, c], _ | [a, b, c, d], _ =>
    simp only [byteAt, List.getD_cons_zero, List.getD_cons_succ, List.getD_nil, BitVec.toNat_zero, List.foldr]
    omega

theorem hostWrite_buffer {s : State} {a : BusAddr} {n : Size} (idle : s.busy = false) (haligned : a.toNat % n.bytes = 0)
    (hbuf : inFbuf s.cfg a.toNat = true ∨ inPbuf s.cfg a.toNat = true) (d : Word) :
    hostWrite a n d s = .next { s with mem := s.mem.writeRange a.toNat (busBytes n d) } := by
  have hm : misaligned a n = false := by simp [misaligned, haligned]
  simp [hostWrite, hm, region_buffer _ _ hbuf, idle]

theorem hostRead_buffer {s : State} {a : BusAddr} {n : Size} (idle : s.busy = false) (haligned : a.toNat % n.bytes = 0)
    (hbuf : inFbuf s.cfg a.toNat = true ∨ inPbuf s.cfg a.toNat = true) {bs : List Byte} (hlen : bs.length = n.bytes)
    (hbs : HoldsBytes s.mem a.toNat bs) : hostRead a n s = .next (returnData (busValue bs) s) := by
  have hm : misaligned a n = false := by simp [misaligned, haligned]
  have hread : s.mem.readRange a.toNat n.bytes = .ok bs := hlen ▸ Memory.readRange_of_holds _ _ _ hbs
  simp [hostRead, hm, region_buffer _ _ hbuf, idle, hread]

/-- Settles O44: an idle access is one range write or range read of its n bytes, and buffers are whole 16-byte blocks. -/
theorem bufferAccessMovesBytes : Obligations.BufferAccessMovesBytes := by
  rintro s a n ⟨⟨hfbuf, -, -⟩, hpbuf, -, -⟩ idle haligned hbuf
  simp only [inFbuf_iff, inPbuf_iff]
  refine ⟨fun hf k hk => aligned_access_in_range rfl hfbuf haligned hk hf,
    fun hp k hk => aligned_access_in_range rfl hpbuf haligned hk hp,
    fun d => ⟨_, hostWrite_buffer idle haligned hbuf d, rfl, fun k hk => ?stored, ?kept⟩, fun bs hlen hbs => ?read⟩
  case stored =>
    rw [← byteAt_busBytes d hk]
    exact holdsBytes_writeRange s.mem a.toNat (busBytes n d) k (by rwa [length_busBytes])
  case kept =>
    rw [← length_busBytes n d]
    exact sameOutside_writeRange s.mem a.toNat (busBytes n d)
  case read =>
    have hn : bs.length ≤ 4 := by cases n <;> simp [hlen, Size.bytes]
    rw [← busValue_eq_foldr bs hn]
    exact hostRead_buffer idle haligned hbuf hlen hbs

end Sys2Proof.Machine
end

section
/-! The decoder and the encoder field by field: a word is its four fields, and the words that meet R93's conditions are the
encodings of the thirteen commands (O1 to O4). -/

namespace Sys2Proof

/-! ### The thirteen commands -/

/-- The commands with every value of U and A, in the order of R94. -/
def allInstrs : List Instr :=
  [.nop, .csumf, .csump, .pad, .enc, .dec false, .dec true, .build false, .build true, .validate, .parse, .authkey, .keyrst]

theorem mem_allInstrs (i : Instr) : i ∈ allInstrs := by
  cases i with
  | dec u => cases u <;> decide
  | build a => cases a <;> decide
  | _ => decide

/-! ### The fields of a word -/

/-- The four fields are all of a word (R90). -/
theorem eq_iff_fields (w v : Word) :
    w = v ↔ reservedField w = reservedField v ∧ opField w = opField v ∧ unpadField w = unpadField v ∧
      autoseqField w = autoseqField v := by
  refine ⟨by rintro rfl; exact ⟨rfl, rfl, rfl, rfl⟩, fun ⟨hrsv, hop, hu, ha⟩ => BitVec.eq_of_getLsbD_eq fun k hk => ?_⟩
  rcases (by omega : k < 8 ∨ k = 8 ∨ k = 9 ∨ 10 ≤ k) with hlow | rfl | rfl | hhigh
  · have hbit := congrArg (·.getLsbD k) hop
    simpa [opField, hlow] using hbit
  · exact hu
  · exact ha
  · have hbit := congrArg (·.getLsbD (k - 10)) hrsv
    simpa [reservedField, show k - 10 < 22 by omega, show 10 + (k - 10) = k by omega] using hbit

theorem fields_and (w m : Word) :
    reservedField (w &&& m) = reservedField w &&& reservedField m ∧ opField (w &&& m) = opField w &&& opField m ∧
      unpadField (w &&& m) = (unpadField w && unpadField m) ∧
      autoseqField (w &&& m) = (autoseqField w && autoseqField m) :=
  ⟨BitVec.extractLsb'_and, BitVec.extractLsb'_and, BitVec.getLsbD_and, BitVec.getLsbD_and⟩

/-- The fields of an encoding: zeros, and OP, U and A of the command (R90). -/
theorem fields_encode (i : Instr) :
    reservedField (encode i) = 0#22 ∧ opField (encode i) = i.op ∧ unpadField (encode i) = i.unpad ∧
      autoseqField (encode i) = i.autoseq := by
  have hall : ∀ j ∈ allInstrs, reservedField (encode j) = 0#22 ∧ opField (encode j) = j.op ∧
      unpadField (encode j) = j.unpad ∧ autoseqField (encode j) = j.autoseq := by decide
  exact hall i (mem_allInstrs i)

/-! ### What decodes -/

@[simp] theorem decode_encode (i : Instr) : decode (encode i) = .ok i := by
  have hall : ∀ j ∈ allInstrs, decode (encode j) = .ok j := by decide
  exact hall i (mem_allInstrs i)

/-- The four conditions of R93 on a command word. -/
def LegalFields (w : Word) : Prop :=
  reservedField w = 0#22 ∧ (opField w).toNat ≤ 0x0A ∧ (unpadField w = true → opField w = 0x05#8) ∧
    (autoseqField w = true → opField w = 0x06#8)

/-- A reserved OP selects no command (R92). -/
theorem opCommand_eq_none {op : Byte} (h : 0x0A < op.toNat) (u a : Bool) : opCommand op u a = none := by
  unfold opCommand
  split
  case h_12 => rfl
  all_goals omega

/-- The decoder answers a command only past its four checks (R93). -/
theorem legalFields_of_decode {w : Word} {i : Instr} (h : decode w = .ok i) : LegalFields w := by
  unfold decode at h
  split at h
  · cases h
  · next hrsv =>
    have hop : (opField w).toNat ≤ 0x0A := by
      by_contra hgt
      rw [opCommand_eq_none (by omega)] at h
      cases h
    split at h
    · cases h
    · split_ifs at h with hu ha
      exact ⟨not_not.mp hrsv, hop, by simpa using hu, by simpa using ha⟩

/-! ### The words that decode are the encodings -/

/-- Each OP value that is not reserved is a command's, with U and A clear (R92). -/
theorem exists_instr_of_op : ∀ n ≤ 0x0A, ∃ i ∈ allInstrs, i.op = BitVec.ofNat 8 n ∧ i.unpad = false ∧ i.autoseq = false := by
  decide

/-- OP, U and A that meet R93's conditions are some command's: with U set only DEC's, with A set only BUILD's. -/
theorem exists_instr_of_fields {op : Byte} {u a : Bool} (hop : op.toNat ≤ 0x0A) (hu : u = true → op = 0x05#8)
    (ha : a = true → op = 0x06#8) : ∃ i : Instr, i.op = op ∧ i.unpad = u ∧ i.autoseq = a := by
  cases u with
  | true =>
    obtain rfl := hu rfl
    cases a with
    | false => exact ⟨.dec true, rfl, rfl, rfl⟩
    | true => exact absurd (ha rfl) (by decide)
  | false =>
    cases a with
    | true =>
      obtain rfl := ha rfl
      exact ⟨.build true, rfl, rfl, rfl⟩
    | false =>
      obtain ⟨i, -, hi, hflags⟩ := exists_instr_of_op op.toNat hop
      exact ⟨i, hi.trans (by simp), hflags⟩

theorem exists_encode_of_legalFields {w : Word} (h : LegalFields w) : ∃ i, w = encode i := by
  obtain ⟨hrsv, hop, hu, ha⟩ := h
  obtain ⟨i, hiop, hiu, hia⟩ := exists_instr_of_fields hop hu ha
  obtain ⟨ersv, eop, eu, ea⟩ := fields_encode i
  refine ⟨i, (eq_iff_fields w (encode i)).mpr ⟨?_, ?_, ?_, ?_⟩⟩
  · rw [ersv, hrsv]
  · rw [eop, hiop]
  · rw [eu, hiu]
  · rw [ea, hia]

/-- A word that decodes is some command's encoding, and that command comes back from it. -/
theorem decode_eq_ok_iff (w : Word) (i : Instr) : decode w = .ok i ↔ w = encode i := by
  refine ⟨fun h => ?_, fun h => h ▸ decode_encode i⟩
  obtain ⟨j, rfl⟩ := exists_encode_of_legalFields (legalFields_of_decode h)
  rw [decode_encode, Except.ok.injEq] at h
  rw [h]

theorem Instr.wf_eq_true (i : Instr) : i.wf = true := by cases i <;> rfl

/-- Settles O1, by `decode_eq_ok_iff`; every command is well formed. -/
theorem decodeEncodeAgree : Obligations.DecodeEncodeAgree := by
  intro w i
  rw [decode_eq_ok_iff, i.wf_eq_true, eq_self, true_and]

/-! ### Legality (R93) -/

theorem decodes_iff_legalFields (w : Word) : (∃ i, decode w = .ok i) ↔ LegalFields w := by
  refine ⟨fun ⟨i, h⟩ => legalFields_of_decode h, fun h => ?_⟩
  obtain ⟨i, hi⟩ := exists_encode_of_legalFields h
  exact ⟨i, (decode_eq_ok_iff w i).mpr hi⟩

/-- What the opcode table's rows fix: all of RSV and OP, U but for DEC's row and A but for BUILD's, each at 0 (R92, R93). -/
theorem opcodeTable_fields : ∀ r ∈ opcodeTable,
    (reservedField r.mask = BitVec.allOnes 22 ∧ reservedField r.matched = 0#22) ∧ opField r.mask = BitVec.allOnes 8 ∧
      (unpadField r.mask = (opField r.matched != 0x05#8) ∧ unpadField r.matched = false) ∧
      autoseqField r.mask = (opField r.matched != 0x06#8) ∧ autoseqField r.matched = false := by
  decide

/-- The rows' OP values are 0 to 0x0A, in order (R92). -/
theorem opcodeTable_op : opcodeTable.map (opField ·.matched) = (List.range 0x0B).map (BitVec.ofNat 8) := by decide

theorem exists_row_iff_op (op : Byte) : (∃ r ∈ opcodeTable, opField r.matched = op) ↔ op.toNat ≤ 0x0A := by
  refine (List.mem_map (f := fun r : OpcodeRow => opField r.matched)).symm.trans ?_
  rw [opcodeTable_op, List.mem_map]
  constructor
  · rintro ⟨n, hn, rfl⟩
    rw [List.mem_range] at hn
    rw [BitVec.toNat_ofNat]
    omega
  · exact fun h => ⟨op.toNat, List.mem_range.mpr (by omega), by simp⟩

/-- A word is a row's exactly when it has the row's OP and meets R93's other conditions. -/
theorem matches_row_iff {r : OpcodeRow} (hr : r ∈ opcodeTable) (w : Word) :
    w &&& r.mask = r.matched ↔
      reservedField w = 0#22 ∧ opField r.matched = opField w ∧ (unpadField w = true → opField w = 0x05#8) ∧
        (autoseqField w = true → opField w = 0x06#8) := by
  obtain ⟨⟨mrsv, vrsv⟩, mop, ⟨mu, vu⟩, ma, va⟩ := opcodeTable_fields r hr
  obtain ⟨ersv, eop, eu, ea⟩ := fields_and w r.mask
  rw [eq_iff_fields, ersv, eop, eu, ea, mrsv, vrsv, mop, mu, vu, ma, va, BitVec.and_allOnes, BitVec.and_allOnes,
    eq_comm (a := opField w)]
  refine and_congr_right fun _ => and_congr_right fun hop => ?_
  rw [hop]
  simp

theorem exists_row_iff_legalFields (w : Word) : (∃ r ∈ opcodeTable, w &&& r.mask = r.matched) ↔ LegalFields w := by
  rw [LegalFields, ← exists_row_iff_op]
  constructor
  · rintro ⟨r, hr, h⟩
    obtain ⟨hrsv, hop, hflags⟩ := (matches_row_iff hr w).mp h
    exact ⟨hrsv, ⟨r, hr, hop⟩, hflags⟩
  · rintro ⟨hrsv, ⟨r, hr, hop⟩, hflags⟩
    exact ⟨r, hr, (matches_row_iff hr w).mpr ⟨hrsv, hop, hflags⟩⟩

/-- Settles O2: both forms of legality are R93's four conditions, which are exactly what decodes. -/
theorem legalWordsByFields : Obligations.LegalWordsByFields := fun w =>
  ⟨decodes_iff_legalFields w, (decodes_iff_legalFields w).trans (exists_row_iff_legalFields w).symm⟩

/-! ### The thirteen legal words (R94) -/

theorem decodes_iff_mem_encodings (w : Word) : (∃ i, decode w = .ok i) ↔ w ∈ allInstrs.map encode := by
  simp only [decode_eq_ok_iff, List.mem_map, mem_allInstrs, true_and, eq_comm (a := w)]

theorem pair_mem_encodings_iff (w : Word) (i : Instr) : (w, i) ∈ allInstrs.map (fun j => (encode j, j)) ↔ w = encode i := by
  simp only [List.mem_map, mem_allInstrs, true_and, Prod.mk.injEq, exists_eq_right, eq_comm (a := w)]

/-- Every word is decoded or rejected with a reason. -/
theorem not_decodes_iff_error (w : Word) : (¬ ∃ i, decode w = .ok i) ↔ ∃ e, decode w = .error e := by
  cases decode w <;> simp

/-- Settles O3: both lists of R94 are the encodings of the thirteen commands. -/
theorem legalWordsAreThirteen : Obligations.LegalWordsAreThirteen := fun w =>
  ⟨fun i => (decode_eq_ok_iff w i).trans (pair_mem_encodings_iff w i).symm,
    (not_congr (decodes_iff_mem_encodings w)).symm.trans (not_decodes_iff_error w)⟩

/-- Settles O4: the legal words are encodings, and each illegal one is evaluated. -/
theorem sampleWordsDecode : Obligations.SampleWordsDecode :=
  ⟨decode_encode .pad, decode_encode (.dec true), decode_encode (.build true), decode_encode .keyrst, by decide⟩

end Sys2Proof
end

section
/-! The written columns of R96 (O53): what each command may change, register by register and byte by byte. -/

namespace Sys2Proof.Machine

/-- The byte at `x` lies in the buffer range R96 names as written by the command; PAD's and BUILD's end where the length
register they leave says. -/
def WrittenByte (i : Instr) (s t : State) (x : Nat) : Prop :=
  (i = .pad ∧ pbufBase + s.plen.toNat ≤ x ∧ x < pbufBase + t.plen.toNat) ∨
  ((i = .enc ∨ i = .dec true ∨ i = .dec false) ∧ pbufBase ≤ x ∧ x < pbufBase + s.plen.toNat) ∨
  ((∃ a, i = .build a) ∧ fbufBase ≤ x ∧ x < fbufBase + t.flen.toNat) ∨
  (i = .parse ∧ pbufBase ≤ x ∧ x < pbufBase + (s.flen.toNat - 0x38))

/-- The written columns of R96, without VALID and the key (`CommandKeeps`). A clause is met by default when the command leaves
its registers, so a proof names only what its command writes. -/
structure WrittenColumn (i : Instr) (s t : State) : Prop where
  rest : t = { s with
    err := t.err, busy := t.busy, done := t.done, valid := t.valid, flen := t.flen, plen := t.plen, seq := t.seq
    devid := t.devid, cksum := t.cksum, pcksum := t.pcksum, key0 := t.key0, key1 := t.key1, key2 := t.key2
    key3 := t.key3, rxDevtype := t.rxDevtype, rxTag := t.rxTag, rxSeq := t.rxSeq, rxMacLo := t.rxMacLo
    rxMacHi := t.rxMacHi, rxDevid := t.rxDevid, rxErrcode := t.rxErrcode, rxPcksum := t.rxPcksum
    rxFcksum := t.rxFcksum, mem := t.mem } := by rfl
  frame : (∀ a, i ≠ .build a) → t.flen = s.flen ∧ t.pcksum = s.pcksum := by simp
  plen : i ≠ .pad → i ≠ .dec true → i ≠ .parse → t.plen = s.plen := by simp
  seq : i ≠ .build true → t.seq = s.seq := by simp
  devid : i ≠ .authkey → i ≠ .keyrst → t.devid = s.devid := by simp
  cksum : i ≠ .csumf → i ≠ .csump → i ≠ .validate → (∀ a, i ≠ .build a) → t.cksum = s.cksum := by simp
  rx : i ≠ .parse → t.rxDevtype = s.rxDevtype ∧ t.rxTag = s.rxTag ∧ t.rxSeq = s.rxSeq ∧ t.rxMacLo = s.rxMacLo ∧
      t.rxMacHi = s.rxMacHi ∧ t.rxDevid = s.rxDevid ∧ t.rxErrcode = s.rxErrcode ∧ t.rxPcksum = s.rxPcksum ∧
      t.rxFcksum = s.rxFcksum := by simp
  mem : ∀ x, t.mem.read x ≠ s.mem.read x → WrittenByte i s t x := by simp

/-- A byte that a range write changes lies in the range. -/
theorem Memory.read_writeRange_ne {m : Memory} {a : Nat} {bs : List Byte} {x : Nat}
    (hne : (m.writeRange a bs).read x ≠ m.read x) : a ≤ x ∧ x < a + bs.length := by
  by_contra hout
  exact hne (sameOutside_writeRange m a bs x (by omega))

/-- If the result is a next state, `P` holds of it. -/
def NextSatisfies (P : State → Prop) (r : Result) : Prop := ∀ t, r = .next t → P t

theorem NextSatisfies.of_eq_next {P : State → Prop} {u : State} {r : Result} (e : r = .next u) (h : P u) :
    NextSatisfies P r := by
  rintro t rfl
  cases e
  exact h

theorem NextSatisfies.of_operandFault {P : State → Prop} {u : State} {a n : Nat} {r : Result} (h : OperandFault u a n r) :
    NextSatisfies P r := by
  rintro t rfl
  exact h.not_next.elim

/-- An error leaves every register but STATUS, and every byte (R232). -/
theorem WrittenColumn.of_error {i : Instr} {s : State} {r : Result} {code : ErrCode}
    (e : r = .next (complete code s)) : NextSatisfies (WrittenColumn i s) r :=
  .of_eq_next e {}

/-! ### The commands -/

theorem execCsumf_writes (s : State) : NextSatisfies (WrittenColumn .csumf s) (execCsumf s) := by
  rcases execCsumf_cases s with ⟨-, e⟩ | ⟨-, ⟨f, -, -, e⟩ | hfault⟩
  · exact WrittenColumn.of_error e
  · exact .of_eq_next e { cksum := fun hne => absurd rfl hne }
  · exact .of_operandFault hfault

theorem execCsump_writes (s : State) : NextSatisfies (WrittenColumn .csump s) (execCsump s) := by
  rcases execCsump_cases s with ⟨-, e⟩ | ⟨-, ⟨p, -, -, e⟩ | hfault⟩
  · exact WrittenColumn.of_error e
  · exact .of_eq_next e { cksum := fun _ hne => absurd rfl hne }
  · exact .of_operandFault hfault

/-- PAD writes the zeros from the old PLEN up to the new one (R184). -/
theorem execPad_writes (s : State) (legal : s.cfg.Legal) : NextSatisfies (WrittenColumn .pad s) (execPad s) := by
  rcases execPad_cases s with ⟨-, e⟩ | ⟨-, hfits, e⟩
  · exact WrittenColumn.of_error e
  · refine .of_eq_next e { plen := fun hne => absurd rfl hne, mem := fun x hne => .inl ⟨rfl, ?_⟩ }
    obtain ⟨hlo, hhi⟩ := Memory.read_writeRange_ne hne
    obtain ⟨-, -, -, hpbuf⟩ := legal
    have hle : s.plen.toNat ≤ paddedLength s.plen.toNat := Nat.le_add_right _ _
    rw [length_zeros] at hhi
    simp only [complete_plen, BitVec.toNat_ofNat]
    omega

theorem execEnc_writes (s : State) : NextSatisfies (WrittenColumn .enc s) (execEnc s) := by
  rcases execEnc_cases s with ⟨-, e⟩ | ⟨-, -, ⟨p, hp, -, e⟩ | hfault⟩
  · exact WrittenColumn.of_error e
  · refine .of_eq_next e { mem := fun x hne => .inr (.inl ⟨.inl rfl, ?_⟩) }
    obtain ⟨hlo, hhi⟩ := Memory.read_writeRange_ne hne
    rw [length_cbcE] at hhi
    omega
  · exact .of_operandFault hfault

/-- DEC stores its plaintext over PLEN's range, and PLEN only with U = 1 (R192, R194). -/
theorem storeDecrypted_writes (u : Bool) (p : List Byte) (s : State) (hp : p.length ≤ s.plen.toNat) :
    NextSatisfies (WrittenColumn (.dec u) s) (storeDecrypted u p s) := by
  have hmem (t : State) (x : Nat) (hne : (writePayload 0 p s).mem.read x ≠ s.mem.read x) :
      WrittenByte (.dec u) s t x := by
    obtain ⟨hlo, hhi⟩ := Memory.read_writeRange_ne hne
    exact .inr (.inl ⟨by cases u <;> simp, by omega⟩)
  rcases storeDecrypted_cases u p s with ⟨-, e⟩ | ⟨rfl, -, -, e⟩ | ⟨-, -, -, e⟩
  · exact .of_eq_next e { mem := hmem _ }
  · exact .of_eq_next e { plen := fun _ hne => absurd rfl hne, mem := hmem _ }
  · exact WrittenColumn.of_error e

theorem execDec_writes (u : Bool) (s : State) : NextSatisfies (WrittenColumn (.dec u) s) (execDec u s) := by
  rcases execDec_cases u s with ⟨-, e⟩ | ⟨-, -, ⟨c, hc, -, e⟩ | hfault⟩
  · exact WrittenColumn.of_error e
  · rw [e]
    refine storeDecrypted_writes u _ s ?_
    rw [length_cbcD _ _ _ (length_ivBytes s)]
    omega
  · exact .of_operandFault hfault

/-- A frame in FBUF with FLEN its length, any checksums, and with A = 0 the old sequence number: stated for any
such values, as no clause depends on how BUILD computes them. -/
theorem writtenColumn_build {a : Bool} {s : State} {bs : List Byte} {fl sq : Half} (ck pc : Half)
    (hlen : bs.length = fl.toNat) (hseq : a = false → sq = s.seq) :
    WrittenColumn (.build a) s
      (complete .noError { writeFrame bs s with flen := fl, cksum := ck, pcksum := pc, seq := sq }) where
  frame hne := absurd rfl (hne a)
  seq hne := hseq (by simpa using hne)
  cksum _ _ _ hne := absurd rfl (hne a)
  mem x hne := .inr (.inr (.inl ⟨⟨a, rfl⟩, hlen ▸ Memory.read_writeRange_ne hne⟩))

/-- BUILD stores its frame over the new FLEN's range, and SEQ only with A = 1 (R130, R133). -/
theorem execBuild_writes (a : Bool) (s : State) (legal : s.cfg.Legal) :
    NextSatisfies (WrittenColumn (.build a) s) (execBuild a s) := by
  rcases execBuild_cases a s with ⟨-, e⟩ | ⟨-, hfits, ⟨p, hp, -, e⟩ | hfault⟩
  · exact WrittenColumn.of_error e
  · refine .of_eq_next e (writtenColumn_build _ _ ?_ ?_)
    · obtain ⟨⟨-, -, hfbuf⟩, -⟩ := legal
      rw [length_buildFrame, hp, BitVec.toNat_ofNat]
      omega
    · rintro rfl
      rfl
  · exact .of_operandFault hfault

theorem execValidate_writes (s : State) : NextSatisfies (WrittenColumn .validate s) (execValidate s) := by
  rcases execValidate_cases s with ⟨-, e⟩ | ⟨-, -, ⟨f, -, -, e⟩ | hfault⟩
  · exact .of_eq_next e {}
  · exact .of_eq_next e { cksum := fun _ _ hne => absurd rfl hne }
  · exact .of_operandFault hfault

/-- PARSE writes the RX registers, PLEN, and the payload it copies (R146). -/
theorem execParse_writes (s : State) : NextSatisfies (WrittenColumn .parse s) (execParse s) := by
  rcases execParse_cases s with ⟨-, e⟩ | ⟨-, -, -, ⟨h, p, -, -, hp, -, e⟩ | hfault | hfault⟩
  · exact WrittenColumn.of_error e
  · refine .of_eq_next e
      { plen := fun _ _ hne => absurd rfl hne
        rx := fun hne => absurd rfl hne
        mem := fun x hne => .inr (.inr (.inr ⟨rfl, ?_⟩)) }
    obtain ⟨hlo, hhi⟩ := Memory.read_writeRange_ne hne
    rw [hp] at hhi
    omega
  · exact .of_operandFault hfault
  · exact .of_operandFault hfault

theorem execAuthkey_writes (s : State) : NextSatisfies (WrittenColumn .authkey s) (execAuthkey s) := by
  rcases execAuthkey_cases s with ⟨-, e⟩ | ⟨-, -, ⟨p, -, -, e⟩ | hfault⟩
  · exact WrittenColumn.of_error e
  · exact .of_eq_next e { devid := fun hne => absurd rfl hne }
  · exact .of_operandFault hfault

theorem execKeyrst_writes (s : State) : NextSatisfies (WrittenColumn .keyrst s) (execKeyrst s) :=
  .of_eq_next (execKeyrst_eq s) { devid := fun _ hne => absurd rfl hne }

theorem exec_writes (i : Instr) (s : State) (legal : s.cfg.Legal) : NextSatisfies (WrittenColumn i s) (exec i s) := by
  cases i with
  | nop => exact WrittenColumn.of_error (execNop_eq s)
  | csumf => exact execCsumf_writes s
  | csump => exact execCsump_writes s
  | pad => exact execPad_writes s legal
  | enc => exact execEnc_writes s
  | dec u => exact execDec_writes u s
  | build a => exact execBuild_writes a s legal
  | validate => exact execValidate_writes s
  | parse => exact execParse_writes s
  | authkey => exact execAuthkey_writes s
  | keyrst => exact execKeyrst_writes s

/-- Settles O53: VALID and the key by `exec_keeps`, everything else by `exec_writes`. -/
theorem commandsWriteOnlyTheirOperands : Obligations.CommandsWriteOnlyTheirOperands := by
  intro i s t legal h
  obtain ⟨-, -, hvalid, hkey⟩ := exec_keeps i s t h
  obtain ⟨hrest, hframe, hplen, hseq, hdevid, hcksum, hrx, hmem⟩ := exec_writes i s legal t h
  have ok_ne {j k : Instr} (hne : j ≠ k) : (Except.ok j : Except Illegal Instr) ≠ .ok k := fun e => hne (Except.ok.inj e)
  exact ⟨hrest, fun hv => hvalid (ok_ne hv), hframe, hplen, hseq,
    fun ha hk => ⟨hdevid ha hk, hkey (ok_ne ha) (ok_ne hk)⟩, hcksum, hrx, hmem⟩

end Sys2Proof.Machine
end

section
/-! The checksum as a sum of bytes (O32), its laws (O33), and its form with the field zeroed (O34). -/

namespace Sys2Proof.Machine

theorem foldl_add_bytes (bs : List Byte) (c : Half) :
    bs.foldl (fun c b => c + b.setWidth 16) c = c + BitVec.ofNat 16 (bs.map BitVec.toNat).sum := by
  induction bs generalizing c with
  | nil => simp
  | cons b bs ih =>
    rw [List.foldl_cons, ih, List.map_cons, List.sum_cons, BitVec.ofNat_add, BitVec.ofNat_toNat, BitVec.add_assoc]

theorem csum_eq_ofNat (bs : List Byte) : csum bs = BitVec.ofNat 16 (0xBEAF + (bs.map BitVec.toNat).sum) := by
  rw [csum, foldl_add_bytes, BitVec.ofNat_add]
  rfl

/-- Settles O32, by `csum_eq_ofNat`. -/
theorem checksumIsSeededSum : Obligations.ChecksumIsSeededSum := fun bs => by
  rw [csum_eq_ofNat, BitVec.toNat_ofNat]

theorem csum_append (s t : List Byte) : csum (s ++ t) = csum s + (csum t - 0xBEAF#16) := by
  simp only [csum_eq_ofNat, List.map_append, List.sum_append, BitVec.ofNat_add]
  grind

theorem csum_perm {s t : List Byte} (h : s.Perm t) : csum s = csum t := by
  rw [csum_eq_ofNat, csum_eq_ofNat, (h.map BitVec.toNat).sum_eq]

@[simp] theorem csum_zeros (n : Nat) : csum (zeros n) = 0xBEAF#16 := by
  simp [csum_eq_ofNat, zeros]

/-- A part in the middle adds its own sum, wherever it stands (R121). -/
theorem csum_append_middle (s m t : List Byte) : csum (s ++ m ++ t) = csum (s ++ t) + (csum m - 0xBEAF#16) := by
  simp only [csum_append]
  grind

theorem csum_singleton (b : Byte) : csum [b] = 0xBEAF#16 + b.setWidth 16 := rfl

/-- A byte adds its value, wherever it stands (R121). -/
theorem csum_append_byte (s t : List Byte) (b : Byte) : csum (s ++ [b] ++ t) = csum (s ++ t) + b.setWidth 16 := by
  rw [csum_append_middle, csum_singleton]
  grind

theorem csum_change_byte_ne (s t : List Byte) {b b' : Byte} (h : b ≠ b') :
    csum (s ++ [b'] ++ t) ≠ csum (s ++ [b] ++ t) := by
  rw [csum_append_byte, csum_append_byte]
  intro he
  have hwide : b'.setWidth 16 = b.setWidth 16 := by grind
  exact h (by simpa using congrArg (BitVec.setWidth 8) hwide.symm)

/-- Settles O33: the laws of a sum. -/
theorem checksumLaws : Obligations.ChecksumLaws := by
  refine ⟨rfl, csum_append, fun s t => csum_perm, fun s n => ?_, fun s t b b' d hd => ?_,
    fun s t b b' => csum_change_byte_ne s t⟩
  · change csum (s ++ zeros n) = csum s
    rw [csum_append, csum_zeros, BitVec.sub_self, BitVec.add_zero]
  · have hwide : b'.setWidth 16 = b.setWidth 16 + BitVec.ofNat 16 d := by
      rw [← BitVec.ofNat_toNat, ← BitVec.ofNat_toNat, hd, BitVec.ofNat_add]
    rw [csum_append_byte, csum_append_byte, hwide, BitVec.add_assoc]

/-! ### The field zeroed (R122) -/

theorem slice_zero (f : List Byte) (b : Nat) : slice f 0 b = f.take b := rfl

theorem slice_length (f : List Byte) (a : Nat) : slice f a f.length = f.drop a := by
  rw [slice, List.take_length]

theorem csumZ_eq (f : List Byte) : csumZ f = csum (f.take 0x20 ++ f.drop 0x22) := by
  rw [csumZ, csum_append_middle, csum_zeros, BitVec.sub_self, BitVec.add_zero]

theorem take_succ_eq_append_byte {f : List Byte} {k : Nat} (h : k < f.length) :
    f.take (k + 1) = f.take k ++ [byteAt f k] := by
  rw [byteAt_eq_getElem f k h, List.take_append_getElem h]

/-- A sequence that reaches past its checksum field is what is before the field, the field's two bytes, and what follows. -/
theorem split_checksumField {f : List Byte} (h : 0x22 ≤ f.length) :
    f = f.take 0x20 ++ [byteAt f 0x20] ++ [byteAt f 0x21] ++ f.drop 0x22 := by
  rw [← take_succ_eq_append_byte (by omega), ← take_succ_eq_append_byte (by omega), List.take_append_drop]

/-- The zeroed checksum as the checksum less the field's two bytes (R122). -/
theorem csumZ_eq_sub {f : List Byte} (h : 0x22 ≤ f.length) :
    csumZ f = csum f - (byteAt f 0x20).setWidth 16 - (byteAt f 0x21).setWidth 16 := by
  have hsum : csum f = csum (f.take 0x20 ++ f.drop 0x22) + (byteAt f 0x20).setWidth 16 + (byteAt f 0x21).setWidth 16 := by
    conv_lhs => rw [split_checksumField h]
    rw [csum_append_byte, List.append_assoc, ← List.append_assoc, csum_append_byte]
  rw [csumZ_eq, hsum]
  grind

/-- Settles O34: the first form by definition, the second by `csumZ_eq_sub`. -/
theorem zeroedChecksumArithmetic : Obligations.ZeroedChecksumArithmetic := by
  refine fun f h => ⟨?_, csumZ_eq_sub h⟩
  rw [slice_zero, slice_length]
  rfl

end Sys2Proof.Machine
end

section
/-! What the commands that read a buffer do when it holds their operand: CSUMF (O16), CSUMP (O17), VALIDATE (O25, O26, O42)
and PARSE (O27). -/

namespace Sys2Proof.Machine

/-- A command does not stop for want of bytes the buffer holds (R262). -/
theorem OperandFault.not_of_holds {s : State} {a n : Nat} {r : Result} {bs : List Byte} (h : OperandFault s a n r)
    (hlen : bs.length = n) (hbs : HoldsBytes s.mem a bs) : False := by
  obtain ⟨x, hnone, hlo, hhi, -⟩ := h
  have hread := hbs (x - a) (by omega)
  rw [Nat.add_sub_cancel' hlo, hnone] at hread
  exact nomatch hread

/-- What a command makes of its operand, when the buffer holds the bytes `bs` there. -/
theorem eq_of_operand_holds {s : State} {a n : Nat} {r : Result} {k : List Byte → Result} {bs : List Byte}
    (hlen : bs.length = n) (hbs : HoldsBytes s.mem a bs)
    (h : (∃ cs, cs.length = n ∧ HoldsBytes s.mem a cs ∧ r = k cs) ∨ OperandFault s a n r) : r = k bs := by
  rcases h with ⟨cs, hcslen, hcs, e⟩ | hfault
  · rw [e, hcs.unique (hcslen.trans hlen.symm) hbs]
  · exact (hfault.not_of_holds hlen hbs).elim

/-! ### CSUMF and CSUMP -/

theorem execCsumf_length {s : State} (h : s.cfg.fbufBytes < s.flen.toNat) : execCsumf s = .next (complete .length s) := by
  rcases execCsumf_cases s with ⟨-, e⟩ | ⟨hfits, -⟩
  · exact e
  · omega

theorem execCsumf_of_holds {s : State} {f : List Byte} (hlen : f.length = s.flen.toNat)
    (hfits : s.flen.toNat ≤ s.cfg.fbufBytes) (hf : HoldsBytes s.mem fbufBase f) :
    execCsumf s = .next (complete .noError { s with cksum := csum f }) := by
  rcases execCsumf_cases s with ⟨hbad, -⟩ | ⟨-, hread⟩
  · omega
  · exact eq_of_operand_holds hlen hf hread

/-- Settles O16: the two outcomes of `execCsumf_cases` that do not stop, with the checksum as a sum. -/
theorem csumfSumsFrame : Obligations.CsumfSumsFrame := by
  refine ⟨rfl, fun s => ⟨execCsumf_length, fun f hlen hfits hf => ?_⟩⟩
  rw [← csum_eq_ofNat]
  exact execCsumf_of_holds hlen hfits hf

theorem execCsump_length {s : State} (h : s.cfg.pbufBytes < s.plen.toNat) : execCsump s = .next (complete .length s) := by
  rcases execCsump_cases s with ⟨-, e⟩ | ⟨hfits, -⟩
  · exact e
  · omega

theorem execCsump_of_holds {s : State} {p : List Byte} (hlen : p.length = s.plen.toNat)
    (hfits : s.plen.toNat ≤ s.cfg.pbufBytes) (hp : HoldsBytes s.mem pbufBase p) :
    execCsump s = .next (complete .noError { s with cksum := csum p }) := by
  rcases execCsump_cases s with ⟨hbad, -⟩ | ⟨-, hread⟩
  · omega
  · exact eq_of_operand_holds hlen hp hread

/-- Settles O17: the two outcomes of `execCsump_cases` that do not stop, with the checksum as a sum. -/
theorem csumpSumsPayload : Obligations.CsumpSumsPayload := by
  refine ⟨rfl, fun s => ⟨execCsump_length, fun p hlen hfits hp => ?_⟩⟩
  rw [← csum_eq_ofNat]
  exact execCsump_of_holds hlen hfits hp

/-! ### VALIDATE -/

theorem execValidate_length {s : State} (h : s.flen.toNat < 0x38 ∨ s.cfg.fbufBytes < s.flen.toNat) :
    execValidate s = .next (complete .length { s with valid := false }) := by
  rcases execValidate_cases s with ⟨-, e⟩ | ⟨hlo, hhi, -⟩
  · exact e
  · omega

theorem execValidate_of_holds {s : State} {f : List Byte} (hlen : f.length = s.flen.toNat) (hlo : 0x38 ≤ s.flen.toNat)
    (hhi : s.flen.toNat ≤ s.cfg.fbufBytes) (hf : HoldsBytes s.mem fbufBase f) :
    execValidate s = .next (complete .noError
      { s with valid := csumZ f == le16 (slice f 0x20 0x22), cksum := csumZ f }) := by
  rcases execValidate_cases s with ⟨hbad, -⟩ | ⟨-, -, hread⟩
  · omega
  · exact eq_of_operand_holds hlen hf hread

/-- The value of two bytes is below 2^16, so `LE16` does not wrap (R11). -/
theorem toNat_le16 (bs : List Byte) : (le16 bs).toNat = (byteAt bs 0).toNat + 256 * (byteAt bs 1).toNat := by
  have := (byteAt bs 0).isLt
  have := (byteAt bs 1).isLt
  rw [le16, BitVec.toNat_ofNat]
  omega

/-- A 16-bit value equals the stored checksum when it is the number its two bytes make (R123). -/
theorem beq_storedChecksum (v : Half) (f : List Byte) :
    (v == le16 (slice f 0x20 0x22)) = decide (v.toNat = (byteAt f 0x20).toNat + 256 * (byteAt f 0x21).toNat) := by
  rw [beq_eq_decide, decide_eq_decide, ← BitVec.toNat_inj, toNat_le16, byteAt_slice _ _ _ _ (by decide),
    byteAt_slice _ _ _ _ (by decide)]

/-- Settles O25: the two outcomes of `execValidate_cases` that do not stop. -/
theorem validateChecksFrame : Obligations.ValidateChecksFrame := by
  refine ⟨rfl, fun s => ⟨execValidate_length, fun f hlen hlo hhi hf => ?_⟩⟩
  rw [← beq_storedChecksum]
  exact execValidate_of_holds hlen hlo hhi hf

/-- Settles O26: neither outcome of `execValidate_cases` that answers a next state writes a buffer. -/
theorem validateKeepsBuffers : Obligations.ValidateKeepsBuffers := by
  intro s t h
  have hmem : t.mem = s.mem := by
    change execValidate s = .next t at h
    rcases execValidate_cases s with ⟨-, e⟩ | ⟨-, -, ⟨f, -, -, e⟩ | hfault⟩
    · cases e.symm.trans h
      rfl
    · cases e.symm.trans h
      rfl
    · exact (h ▸ hfault).not_next.elim
  exact ⟨hmem, fun x => by rw [hmem]⟩

/-- A VALIDATE without error has read a frame of FLEN bytes. -/
theorem execValidate_noError {s t : State} (h : execValidate s = .next t) (herr : t.err = .noError) :
    ∃ f, f.length = s.flen.toNat ∧ 0x38 ≤ s.flen.toNat ∧ s.flen.toNat ≤ s.cfg.fbufBytes ∧
      HoldsBytes s.mem fbufBase f ∧ t.valid = (csumZ f == le16 (slice f 0x20 0x22)) := by
  rcases execValidate_cases s with ⟨-, e⟩ | ⟨hlo, hhi, ⟨f, hlen, hf, e⟩ | hfault⟩
  · cases e.symm.trans h
    exact nomatch herr
  · cases e.symm.trans h
    exact ⟨f, hlen, hlo, hhi, hf, rfl⟩
  · exact (h ▸ hfault).not_next.elim

/-! ### One byte of a frame changed -/

theorem byteAt_set (f : List Byte) (k i : Nat) (b : Byte) (h : i < f.length) :
    byteAt (f.set k b) i = if k = i then b else byteAt f i := by
  rw [byteAt_eq_getElem _ _ (by rwa [List.length_set]), byteAt_eq_getElem _ _ h, List.getElem_set]

theorem slice_set_outside (f : List Byte) {k lo hi : Nat} (b : Byte) (h : k < lo ∨ hi ≤ k) :
    slice (f.set k b) lo hi = slice f lo hi := by
  rw [slice, List.take_set, List.drop_set]
  split
  · rfl
  · rw [List.set_eq_of_length_le (by simp; omega), slice]

theorem HoldsBytes.write {m : Memory} {a k : Nat} {f : List Byte} (h : HoldsBytes m a f) (b : Byte) :
    HoldsBytes (m.write (a + k) b) a (f.set k b) := by
  intro i hi
  rw [List.length_set] at hi
  rw [Memory.read_write, byteAt_set _ _ _ _ hi, h i hi]
  by_cases hik : i = k
  · simp [hik]
  · simp [hik, Ne.symm hik]

/-- The zeroed checksum sees a change of any one byte outside the checksum field (R121, R122). -/
theorem csumZ_set_ne {f : List Byte} {k : Nat} {b : Byte} (hlen : 0x22 ≤ f.length) (hk : k < f.length)
    (h20 : k ≠ 0x20) (h21 : k ≠ 0x21) (hb : byteAt f k ≠ b) : csumZ (f.set k b) ≠ csumZ f := by
  have hset : f.set k b = f.take k ++ [b] ++ f.drop (k + 1) := by
    rw [List.set_eq_take_append_cons_drop, if_pos hk, List.append_assoc, List.singleton_append]
  have hold : f = f.take k ++ [byteAt f k] ++ f.drop (k + 1) := by
    rw [← take_succ_eq_append_byte hk, List.take_append_drop]
  have hsum : csum (f.set k b) ≠ csum f := by
    conv_rhs => rw [hold]
    rw [hset]
    exact csum_change_byte_ne _ _ hb
  rw [csumZ_eq_sub (by rwa [List.length_set]), csumZ_eq_sub hlen, byteAt_set _ _ _ _ (by omega), if_neg h20,
    byteAt_set _ _ _ _ (by omega), if_neg h21]
  intro he
  exact hsum (by grind)

/-- Settles O42: the changed frame has another zeroed checksum and the same checksum field. -/
theorem corruptedFrameIsRejected : Obligations.CorruptedFrameIsRejected := by
  intro s t k b h herr hvalid hk h20 h21 hb
  obtain ⟨f, hlen, hlo, hhi, hf, hv⟩ := execValidate_noError h herr
  have hbyte : byteAt f k ≠ b := fun e => hb (by rw [hf k (by omega), e])
  have hfield : slice (f.set k b) 0x20 0x22 = slice f 0x20 0x22 := slice_set_outside f b (by omega)
  refine ⟨_, execValidate_of_holds (f := f.set k b) (by rwa [List.length_set]) hlo hhi (hf.write b), rfl, ?_⟩
  rw [hv, beq_iff_eq] at hvalid
  rw [complete_valid, hfield, ← hvalid, beq_eq_false_iff_ne]
  exact csumZ_set_ne (by omega) (by omega) h20 h21 hbyte

/-! ### PARSE -/

theorem execParse_length {s : State}
    (h : s.flen.toNat < 0x38 ∨ s.cfg.fbufBytes < s.flen.toNat ∨ s.cfg.pbufBytes < s.flen.toNat - 0x38) :
    execParse s = .next (complete .length s) := by
  rcases execParse_cases s with ⟨-, e⟩ | ⟨hlo, hhi, hp, -⟩
  · exact e
  · omega

/-- The state a PARSE of the frame `f` leaves (R146). -/
def parseState (f : List Byte) (s : State) : State :=
  { writePayload 0 (f.drop 0x38) (loadRx (slice f 0x20 0x36) s) with plen := BitVec.ofNat 16 (s.flen.toNat - 0x38) }

/-- PARSE looks at the header bytes 0x20..0x35 and the payload only (R123, log 13). -/
theorem execParse_of_holds {s : State} {f : List Byte} (hlen : f.length = s.flen.toNat) (hlo : 0x38 ≤ s.flen.toNat)
    (hhi : s.flen.toNat ≤ s.cfg.fbufBytes) (hp : s.flen.toNat - 0x38 ≤ s.cfg.pbufBytes)
    (hf : ∀ k, k < f.length → (0x20 ≤ k ∧ k < 0x36) ∨ 0x38 ≤ k → s.mem.read (fbufBase + k) = some (byteAt f k)) :
    execParse s = .next (complete .noError (parseState f s)) := by
  have hheadLen : (slice f 0x20 0x36).length = 0x16 := length_slice _ _ _ (by omega)
  have hhead : HoldsBytes s.mem (fbufBase + 0x20) (slice f 0x20 0x36) := fun k hk => by
    rw [Nat.add_assoc, hf _ (by omega) (by omega), byteAt_slice _ _ _ _ (by omega)]
  have htailLen : (f.drop 0x38).length = s.flen.toNat - 0x38 := by rw [List.length_drop, hlen]
  have htail : HoldsBytes s.mem (fbufBase + 0x38) (f.drop 0x38) := fun k hk => by
    rw [Nat.add_assoc, hf _ (by omega) (by omega), byteAt_drop]
  rcases execParse_cases s with ⟨hbad, -⟩ | ⟨-, -, -, ⟨h', p', hl', hh', hlp', hp', e⟩ | hfault | hfault⟩
  · omega
  · rw [e, hh'.unique (hl'.trans hheadLen.symm) hhead, hp'.unique (hlp'.trans htailLen.symm) htail, parseState]
  · exact (hfault.not_of_holds hheadLen hhead).elim
  · exact (hfault.not_of_holds htailLen htail).elim

theorem slice_slice (f : List Byte) {a b c d : Nat} (h : a + d ≤ b) :
    slice (slice f a b) c d = slice f (a + c) (a + d) := by
  rw [slice, slice, slice, List.take_drop, List.take_take, Nat.min_eq_left h, List.drop_drop]

/-- The RX registers are the fields of the frame at R123's offsets. -/
theorem loadRx_slice (f : List Byte) (s : State) :
    loadRx (slice f 0x20 0x36) s = { s with
      rxFcksum := le16 (slice f 0x20 0x22)
      rxErrcode := le16 (slice f 0x22 0x24)
      rxDevtype := le16 (slice f 0x24 0x26)
      rxTag := le16 (slice f 0x26 0x28)
      rxSeq := le16 (slice f 0x28 0x2a)
      rxMacLo := le32 (slice f 0x2a 0x2e)
      rxMacHi := le16 (slice f 0x2e 0x30)
      rxDevid := le32 (slice f 0x30 0x34)
      rxPcksum := le16 (slice f 0x34 0x36) } := by
  simp [loadRx, slice_slice]

theorem parseState_cfg (f : List Byte) (s : State) : (parseState f s).cfg = s.cfg := by
  simp only [parseState, writePayload, loadRx]

theorem parseState_plen (f : List Byte) (s : State) :
    (parseState f s).plen = BitVec.ofNat 16 (s.flen.toNat - 0x38) := by
  simp only [parseState]

theorem parseState_mem (f : List Byte) (s : State) :
    (parseState f s).mem = s.mem.writeRange pbufBase (f.drop 0x38) := by
  simp only [parseState, writePayload, loadRx, Nat.add_zero]

/-- Settles O27: the two outcomes of `execParse_cases` that do not stop, with the RX registers as fields of the frame. -/
theorem parseReadsHeader : Obligations.ParseReadsHeader := by
  refine ⟨rfl, fun s _ => ⟨execParse_length, fun f hlen hlo hhi hp hf => ?_⟩⟩
  refine ⟨_, execParse_of_holds hlen hlo hhi hp hf, ?_, ?_, ?_⟩
  · simp only [parseState, loadRx_slice, writePayload, complete]
  · rw [complete_mem, parseState_mem]
    exact holdsBytes_writeRange _ _ _
  · have hout := sameOutside_writeRange s.mem pbufBase (f.drop 0x38)
    rwa [List.length_drop, hlen, ← parseState_mem] at hout

end Sys2Proof.Machine
end

section
/-! BUILD (O21 to O24): the frame as a sequence of fields of known widths, and the state that stores it; and VALIDATE of what
BUILD stored (O41). -/

namespace Sys2Proof.Machine

/-! ### The fields of a frame -/

/-- The fields of a frame in the order of R123, with what follows the header as the last; MAC is its two registers. -/
def frameFields (s : State) (fc seq pc : Half) (c : List Byte) : List (List Byte) :=
  [s.cfg.magic.toList, zeros 24, bytesLE16 fc, zeros 2, bytesLE16 s.devtype, bytesLE16 s.tag, bytesLE16 seq,
    bytesLE32 s.macLo, bytesLE16 s.macHi, bytesLE32 s.devid, bytesLE16 pc, zeros 2, c]

theorem frameHeader_append_eq_flatten (s : State) (fc seq pc : Half) (c : List Byte) :
    frameHeader s fc seq pc ++ c = (frameFields s fc seq pc c).flatten := by
  simp [frameHeader, frameFields, macBytes]

/-- The widths of the header fields (R123). -/
def headerWidths : List Nat := [8, 24, 2, 2, 2, 2, 2, 4, 2, 4, 2, 2]

theorem map_length_frameFields (s : State) (fc seq pc : Half) (c : List Byte) :
    (frameFields s fc seq pc c).map List.length = headerWidths ++ [c.length] := by
  simp [frameFields, headerWidths]

/-- Field `i` of a frame stands where the widths of those before it end. -/
theorem slice_frame_field (s : State) (fc seq pc : Half) (c : List Byte) (i : Nat) (hi : i < 12) :
    slice (frameHeader s fc seq pc ++ c) (headerWidths.take i).sum (headerWidths.take (i + 1)).sum =
      (frameFields s fc seq pc c)[i]'(Nat.lt_succ_of_lt hi) := by
  have h := List.drop_take_succ_flatten_eq_getElem (frameFields s fc seq pc c) i (Nat.lt_succ_of_lt hi)
  rw [map_length_frameFields, List.take_append_of_le_length (by simp [headerWidths]; omega),
    List.take_append_of_le_length (by simp [headerWidths]; omega)] at h
  rw [frameHeader_append_eq_flatten, slice, h]

theorem take_frame (s : State) (fc seq pc : Half) (c : List Byte) :
    (frameHeader s fc seq pc ++ c).take 0x20 = s.cfg.magic.toList ++ zeros 24 := by
  simp only [frameHeader, List.append_assoc]
  rw [← List.append_assoc]
  exact List.take_left' (by simp)

theorem drop_frame (s : State) (fc seq pc : Half) (c : List Byte) :
    (frameHeader s fc seq pc ++ c).drop 0x22 = zeros 2 ++ bytesLE16 s.devtype ++ bytesLE16 s.tag ++ bytesLE16 seq ++
      macBytes s ++ bytesLE32 s.devid ++ bytesLE16 pc ++ zeros 2 ++ c := by
  simp only [frameHeader, List.append_assoc]
  rw [← List.append_assoc, ← List.append_assoc]
  exact List.drop_left' (by simp)

theorem drop_header (s : State) (fc seq pc : Half) (c : List Byte) : (frameHeader s fc seq pc ++ c).drop 0x38 = c :=
  List.drop_left' (length_frameHeader s fc seq pc)

/-- The zeroed checksum of a frame is the checksum of the frame made with a zero in its field (R122, R134). -/
theorem csumZ_frame (s : State) (fc seq pc : Half) (c : List Byte) :
    csumZ (frameHeader s fc seq pc ++ c) = csum (frameHeader s 0 seq pc ++ c) := by
  rw [csumZ, take_frame, drop_frame, frameHeader, show bytesLE16 0 = zeros 2 from rfl]
  simp only [List.append_assoc]

theorem csumZ_buildFrame (a : Bool) (p : List Byte) (s : State) : csumZ (buildFrame a p s) = buildChecksum a p s :=
  csumZ_frame ..

/-- Field `i` of the frame BUILD stores. -/
theorem slice_buildFrame (a : Bool) (p : List Byte) (s : State) (i : Nat) (hi : i < 12) :
    slice (buildFrame a p s) (headerWidths.take i).sum (headerWidths.take (i + 1)).sum =
      (frameFields s (buildChecksum a p s) (buildSeq a s) (buildPayloadChecksum p)
        (cbcE (keyBytes s) (ivBytes s) (buildPlaintext p)))[i]'(Nat.lt_succ_of_lt hi) :=
  slice_frame_field s _ _ _ _ i hi

theorem drop_buildFrame (a : Bool) (p : List Byte) (s : State) :
    (buildFrame a p s).drop 0x38 = cbcE (keyBytes s) (ivBytes s) (buildPlaintext p) :=
  drop_header ..

section
variable (a : Bool) (p : List Byte) (s : State)

theorem slice_buildFrame_checksum : slice (buildFrame a p s) 0x20 0x22 = bytesLE16 (buildChecksum a p s) :=
  slice_buildFrame a p s 2 (by decide)

theorem slice_buildFrame_errcode : slice (buildFrame a p s) 0x22 0x24 = bytesLE16 0 :=
  slice_buildFrame a p s 3 (by decide)

theorem slice_buildFrame_devtype : slice (buildFrame a p s) 0x24 0x26 = bytesLE16 s.devtype :=
  slice_buildFrame a p s 4 (by decide)

theorem slice_buildFrame_tag : slice (buildFrame a p s) 0x26 0x28 = bytesLE16 s.tag :=
  slice_buildFrame a p s 5 (by decide)

theorem slice_buildFrame_seq : slice (buildFrame a p s) 0x28 0x2a = bytesLE16 (buildSeq a s) :=
  slice_buildFrame a p s 6 (by decide)

theorem slice_buildFrame_macLo : slice (buildFrame a p s) 0x2a 0x2e = bytesLE32 s.macLo :=
  slice_buildFrame a p s 7 (by decide)

theorem slice_buildFrame_macHi : slice (buildFrame a p s) 0x2e 0x30 = bytesLE16 s.macHi :=
  slice_buildFrame a p s 8 (by decide)

theorem slice_buildFrame_devid : slice (buildFrame a p s) 0x30 0x34 = bytesLE32 s.devid :=
  slice_buildFrame a p s 9 (by decide)

theorem slice_buildFrame_pcksum : slice (buildFrame a p s) 0x34 0x36 = bytesLE16 (buildPayloadChecksum p) :=
  slice_buildFrame a p s 10 (by decide)

end

theorem slice_append_slice (f : List Byte) {a b c : Nat} (hab : a ≤ b) (hbc : b ≤ c) :
    slice f a b ++ slice f b c = slice f a c := by
  apply List.append_cancel_left (as := f.take a)
  rw [← List.append_assoc, take_append_slice f a b hab, take_append_slice f b c hbc,
    take_append_slice f a c (hab.trans hbc)]

/-! ### What a BUILD does -/

theorem execBuild_of_holds (a : Bool) {s : State} {p : List Byte} (hlen : p.length = s.plen.toNat)
    (hp : s.plen.toNat ≤ s.cfg.pbufBytes) (hfits : hdrLen + buildPayloadLength s.plen.toNat ≤ s.cfg.fbufBytes)
    (hb : HoldsBytes s.mem pbufBase p) : execBuild a s = .next (complete .noError (buildState a p s)) := by
  rcases execBuild_cases a s with ⟨hbad, -⟩ | ⟨-, -, hread⟩
  · omega
  · exact eq_of_operand_holds hlen hb hread

/-- A BUILD without error has read a payload of PLEN bytes whose frame fits. -/
theorem execBuild_noError {a : Bool} {s t : State} (h : execBuild a s = .next t) (herr : t.err = .noError) :
    ∃ p, p.length = s.plen.toNat ∧ HoldsBytes s.mem pbufBase p ∧ (buildFrame a p s).length ≤ s.cfg.fbufBytes ∧
      t = complete .noError (buildState a p s) := by
  rcases execBuild_cases a s with ⟨-, e⟩ | ⟨-, hfits, ⟨p, hlen, hp, e⟩ | hfault⟩
  · cases e.symm.trans h
    exact nomatch herr
  · cases e.symm.trans h
    exact ⟨p, hlen, hp, by rwa [length_buildFrame, hlen], rfl⟩
  · exact (h ▸ hfault).not_next.elim

/-- A BUILD with an error has changed STATUS only (R232). -/
theorem execBuild_error {a : Bool} {s t : State} (h : execBuild a s = .next t) (herr : t.err ≠ .noError) :
    t = complete .length s := by
  rcases execBuild_cases a s with ⟨-, e⟩ | ⟨-, -, ⟨p, -, -, e⟩ | hfault⟩
  · exact (Host.Outcome.next.inj (e.symm.trans h)).symm
  · cases e.symm.trans h
    exact absurd rfl herr
  · exact (h ▸ hfault).not_next.elim

@[simp] theorem buildState_seq (a : Bool) (p : List Byte) (s : State) : (buildState a p s).seq = buildSeq a s := by
  simp only [buildState]

@[simp] theorem buildState_cksum (a : Bool) (p : List Byte) (s : State) :
    (buildState a p s).cksum = buildChecksum a p s := by
  simp only [buildState]

@[simp] theorem buildState_pcksum (a : Bool) (p : List Byte) (s : State) :
    (buildState a p s).pcksum = buildPayloadChecksum p := by
  simp only [buildState]

/-- FLEN holds the length of a frame that fits: FBUF is at most 4096 bytes (R8). -/
theorem buildState_flen {a : Bool} {p : List Byte} {s : State} (legal : s.cfg.Legal) (hlen : p.length = s.plen.toNat)
    (hfits : (buildFrame a p s).length ≤ s.cfg.fbufBytes) : (buildState a p s).flen.toNat = (buildFrame a p s).length := by
  obtain ⟨⟨-, -, hmax⟩, -⟩ := legal
  simp only [buildState, ← hlen, ← length_buildFrame a p s]
  rw [BitVec.toNat_ofNat, Nat.mod_eq_of_lt (by omega)]

theorem holdsBytes_built (a : Bool) (p : List Byte) (s : State) (code : ErrCode) :
    HoldsBytes (complete code (buildState a p s)).mem fbufBase (buildFrame a p s) := by
  rw [complete_mem, buildState_mem]
  exact holdsBytes_writeRange _ _ _

theorem sameOutside_built (a : Bool) (p : List Byte) (s : State) (code : ErrCode) :
    SameOutside s.mem (complete code (buildState a p s)).mem fbufBase (buildFrame a p s).length := by
  rw [complete_mem, buildState_mem]
  exact sameOutside_writeRange _ _ _

/-- All a BUILD leaves but the memory: CKSUM is the zeroed checksum of the frame stored (R134). -/
theorem buildState_registers (a : Bool) (p : List Byte) (s : State) :
    { complete .noError (buildState a p s) with mem := s.mem } = { s with
      flen := BitVec.ofNat 16 (hdrLen + buildPayloadLength s.plen.toNat)
      cksum := csumZ (buildFrame a p s)
      pcksum := buildPayloadChecksum p
      seq := buildSeq a s
      err := .noError, busy := false, done := true } := by
  simp only [csumZ_buildFrame, buildState, writeFrame, complete]

/-- Settles O21: the state is `buildState`, and each field of the frame is where R123 puts it (`slice_buildFrame`). -/
theorem buildWithPayload : Obligations.BuildWithPayload := by
  intro s a p _ hlen hpos hp hfits hb
  have hne : p ≠ [] := List.ne_nil_of_length_pos hpos
  have hm : hdrLen + buildPayloadLength s.plen.toNat = 0x38 + (p.length + (16 - p.length % 16)) := by
    rw [buildPayloadLength, if_neg (by omega), hlen]
    rfl
  have hplain : buildPlaintext p = p ++ List.replicate (16 - p.length % 16) 0 := if_neg hne
  have hpc : buildPayloadChecksum p = csum (p ++ List.replicate (16 - p.length % 16) 0) := if_neg hne
  have hflen := length_buildFrame a p s
  rw [hlen, hm] at hflen
  refine ⟨_, buildFrame a p s, execBuild_of_holds a hlen (by omega) (by omega) hb, ?_, holdsBytes_built a p s .noError,
    sameOutside_built a p s .noError, hflen, slice_buildFrame a p s 0 (by decide), slice_buildFrame a p s 1 (by decide),
    ?_, slice_buildFrame_errcode a p s, slice_buildFrame_devtype a p s, slice_buildFrame_tag a p s,
    slice_buildFrame_seq a p s, ?_, slice_buildFrame_devid a p s, ?_, slice_buildFrame a p s 11 (by decide), ?_⟩
  · rw [buildState_registers, hm, hpc]
    rfl
  · exact (slice_buildFrame_checksum a p s).trans (congrArg bytesLE16 (csumZ_buildFrame a p s).symm)
  · rw [← slice_append_slice _ (b := 0x2e) (by decide) (by decide), slice_buildFrame_macLo,
      slice_buildFrame_macHi, macBytes]
  · rw [slice_buildFrame_pcksum, hpc]
  · rw [drop_buildFrame, hplain]

/-- Settles O22: BUILD of the empty payload, whose frame is the header and nothing after it. -/
theorem buildHeaderOnly : Obligations.BuildHeaderOnly := by
  intro s a legal hplen
  obtain ⟨⟨-, hmin, -⟩, -⟩ := legal
  have hm : hdrLen + buildPayloadLength s.plen.toNat = 0x38 := by rw [hplen]; rfl
  have hflen : (buildFrame a [] s).length = 0x38 := length_buildFrame a [] s
  have hb : HoldsBytes s.mem pbufBase [] := fun k hk => absurd hk (Nat.not_lt_zero k)
  refine ⟨_, buildFrame a [] s, execBuild_of_holds (p := []) a hplen.symm (by omega) (by omega) hb, ?_,
    holdsBytes_built a [] s .noError, ?_, hflen, ?_, take_frame .., ?_⟩
  · rw [buildState_registers, hm]
    rfl
  · rw [← hflen]
    exact sameOutside_built a [] s .noError
  · exact (slice_buildFrame_checksum a [] s).trans (congrArg bytesLE16 (csumZ_buildFrame a [] s).symm)
  · exact (drop_frame ..).trans (List.append_nil _)

/-- The sequence number placed is in the frame stored (R133). -/
theorem holdsBytes_built_seq (a : Bool) (p : List Byte) (s : State) (code : ErrCode) :
    HoldsBytes (complete code (buildState a p s)).mem (fbufBase + 0x28) (bytesLE16 (buildSeq a s)) := by
  rw [← slice_buildFrame_seq a p s]
  refine (holdsBytes_built a p s code).slice _ _ ?_
  rw [length_buildFrame, hdrLen]
  omega

theorem toNat_buildSeq (a : Bool) (s : State) :
    (buildSeq a s).toNat = if a then (s.seq.toNat + 1) % 2 ^ 16 else s.seq.toNat := by
  cases a <;> simp [buildSeq]

/-- Settles O23: without an error SEQ is the number placed, which the frame holds; with one it stays. -/
theorem buildSequenceNumber : Obligations.BuildSequenceNumber := by
  intro s t a _ h
  have hplaced (herr : t.err = .noError) :
      t.seq = buildSeq a s ∧ HoldsBytes t.mem (fbufBase + 0x28) (bytesLE16 t.seq) := by
    obtain ⟨p, -, -, -, rfl⟩ := execBuild_noError h herr
    rw [complete_seq, buildState_seq]
    exact ⟨rfl, holdsBytes_built_seq a p s .noError⟩
  refine ⟨fun herr => ?_, fun herr ha hmax => ?_, fun herr => ?_⟩
  · obtain ⟨hseq, hbytes⟩ := hplaced herr
    exact ⟨by rw [hseq, toNat_buildSeq], hbytes 0 Nat.two_pos, hbytes 1 Nat.one_lt_two⟩
  · obtain ⟨hseq, hbytes⟩ := hplaced herr
    have hzero : t.seq = 0x0000#16 := by
      rw [hseq, ha, buildSeq, hmax]
      rfl
    rw [hzero] at hbytes ⊢
    exact ⟨rfl, hbytes 0 (by decide), hbytes 1 (by decide)⟩
  · rw [execBuild_error h herr, complete_seq]

/-- Settles O24: the one write of BUILD is the frame, which ends at the new FLEN, inside FBUF and so below PBUF. -/
theorem buildKeepsOtherBytes : Obligations.BuildKeepsOtherBytes := by
  intro s t a legal h herr
  obtain ⟨p, hlen, -, hfits, rfl⟩ := execBuild_noError h herr
  have hflen := buildState_flen legal hlen hfits
  obtain ⟨⟨-, -, hmax⟩, -⟩ := legal
  have hout := sameOutside_built a p s .noError
  rw [complete_flen, hflen]
  refine ⟨hfits, fun x hx => hout _ (.inr (by omega)), fun x => hout _ (.inr ?_)⟩
  simp only [fbufBase, pbufBase]
  omega

/-! ### BUILD, then VALIDATE -/

/-- Settles O41: VALIDATE reads the frame BUILD stored, whose zeroed checksum is the one in its field (R134). -/
theorem builtFrameValidates : Obligations.BuiltFrameValidates := by
  intro s t u a legal h herr hcfg huflen hmem
  obtain ⟨p, hlen, -, hfits, rfl⟩ := execBuild_noError h herr
  have hflen : (buildFrame a p s).length = u.flen.toNat := by
    rw [huflen, complete_flen, buildState_flen legal hlen hfits]
  have hucfg : u.cfg = s.cfg := by rw [hcfg, complete_cfg, buildState_cfg]
  have hf : HoldsBytes u.mem fbufBase (buildFrame a p s) := fun k hk => by
    rw [hmem k (by rw [complete_cfg, buildState_cfg]; omega)]
    exact holdsBytes_built a p s .noError k hk
  have hlo : 0x38 ≤ u.flen.toNat := by
    rw [← hflen, length_buildFrame]
    exact Nat.le_add_right _ _
  refine ⟨_, execValidate_of_holds hflen hlo (by rw [hucfg]; omega) hf, rfl, ?_, ?_⟩
  · rw [complete_valid, csumZ_buildFrame, slice_buildFrame_checksum, le16_bytesLE16, beq_self_eq_true]
  · rw [complete_cksum, complete_cksum, buildState_cksum, csumZ_buildFrame]

end Sys2Proof.Machine
end

section
/-! Decryption inverts encryption: each layer of a round, the rounds, a block (R171), and a CBC chain (R179). -/

namespace Sys2Proof.Machine

/-! ### The layers of a round -/

theorem invSbox_sbox : ∀ x : Byte, invSbox (sbox x) = x := by decide +kernel

theorem invSubBytes_subBytes (s : Block) : invSubBytes (subBytes s) = s := by
  simp only [invSubBytes, subBytes, mapBlock, invSbox_sbox]

theorem invShiftRows_shiftRows (s : Block) : invShiftRows (shiftRows s) = s := rfl

theorem xorCol_xorCol_self (a b : Col) : xorCol (xorCol a b) b = a := by
  simp only [xorCol, BitVec.xor_assoc, BitVec.xor_self, BitVec.xor_zero]

theorem addRoundKey_addRoundKey (w : List Col) (r : Nat) (s : Block) : addRoundKey w r (addRoundKey w r s) = s := by
  simp only [addRoundKey, xorBlock, xorCol_xorCol_self]

/-! Multiplication by a constant is linear, so a product of the two matrices of R167 is checked one column entry at a time. -/

theorem mulBits_xor (n : Nat) (a b c : Byte) : mulBits n a (b ^^^ c) = mulBits n a b ^^^ mulBits n a c := by
  induction n generalizing a b c with
  | zero => simp [mulBits]
  | succ n ih =>
    have hlow : (if (b ^^^ c).getLsbD 0 then a else 0#8) =
        (if b.getLsbD 0 then a else 0#8) ^^^ (if c.getLsbD 0 then a else 0#8) := by
      rw [BitVec.getLsbD_xor]
      cases b.getLsbD 0 <;> cases c.getLsbD 0 <;> simp
    rw [mulBits, mulBits, mulBits, hlow, BitVec.ushiftRight_xor_distrib, ih]
    ac_rfl

theorem gmul_xor (a b c : Byte) : gmul a (b ^^^ c) = gmul a b ^^^ gmul a c := mulBits_xor 8 a b c

/-- The first row of InvMixColumns' matrix against the four columns of MixColumns': 1, 0, 0, 0 (R167). -/
theorem invMix_row_column : ∀ x : Byte,
    gmul 14 (gmul 2 x) ^^^ gmul 11 (gmul 1 x) ^^^ gmul 13 (gmul 1 x) ^^^ gmul 9 (gmul 3 x) = x ∧
    gmul 14 (gmul 3 x) ^^^ gmul 11 (gmul 2 x) ^^^ gmul 13 (gmul 1 x) ^^^ gmul 9 (gmul 1 x) = 0 ∧
    gmul 14 (gmul 1 x) ^^^ gmul 11 (gmul 3 x) ^^^ gmul 13 (gmul 2 x) ^^^ gmul 9 (gmul 1 x) = 0 ∧
    gmul 14 (gmul 1 x) ^^^ gmul 11 (gmul 1 x) ^^^ gmul 13 (gmul 3 x) ^^^ gmul 9 (gmul 2 x) = 0 := by
  decide +kernel

/-- The first byte of a column, by linearity column entry by column entry (R167). -/
theorem invMix_first_byte (a : Col) : mixByte 14 11 13 9 (mixCol a) = a.b0 := by
  obtain ⟨h0, -, -, -⟩ := invMix_row_column a.b0
  obtain ⟨-, h1, -, -⟩ := invMix_row_column a.b1
  obtain ⟨-, -, h2, -⟩ := invMix_row_column a.b2
  obtain ⟨-, -, -, h3⟩ := invMix_row_column a.b3
  calc mixByte 14 11 13 9 (mixCol a)
      = (gmul 14 (gmul 2 a.b0) ^^^ gmul 11 (gmul 1 a.b0) ^^^ gmul 13 (gmul 1 a.b0) ^^^ gmul 9 (gmul 3 a.b0)) ^^^
        (gmul 14 (gmul 3 a.b1) ^^^ gmul 11 (gmul 2 a.b1) ^^^ gmul 13 (gmul 1 a.b1) ^^^ gmul 9 (gmul 1 a.b1)) ^^^
        (gmul 14 (gmul 1 a.b2) ^^^ gmul 11 (gmul 3 a.b2) ^^^ gmul 13 (gmul 2 a.b2) ^^^ gmul 9 (gmul 1 a.b2)) ^^^
        (gmul 14 (gmul 1 a.b3) ^^^ gmul 11 (gmul 1 a.b3) ^^^ gmul 13 (gmul 3 a.b3) ^^^ gmul 9 (gmul 2 a.b3)) := by
        simp only [mixByte, mixCol, gmul_xor]
        ac_rfl
    _ = a.b0 := by
        rw [h0, h1, h2, h3]
        simp

/-- The column with its bytes moved up one row. -/
def rotateCol (a : Col) : Col := ⟨a.b1, a.b2, a.b3, a.b0⟩

/-- The rows of MixColumns' matrix are rotations of one another. -/
theorem mixCol_rotateCol (a : Col) : mixCol (rotateCol a) = rotateCol (mixCol a) := by
  simp only [mixCol, rotateCol, mixByte, Col.mk.injEq]
  refine ⟨?_, ?_, ?_, ?_⟩ <;> ac_rfl

theorem mixByte_rotateCol (k0 k1 k2 k3 : Byte) (a : Col) :
    mixByte k0 k1 k2 k3 (rotateCol a) = mixByte k3 k0 k1 k2 a := by
  simp only [mixByte, rotateCol]
  ac_rfl

/-- Each further byte is the first byte of the column rotated. -/
theorem invMixCol_mixCol (a : Col) : invMixCol (mixCol a) = a := by
  have h0 := invMix_first_byte a
  have h1 := invMix_first_byte (rotateCol a)
  have h2 := invMix_first_byte (rotateCol (rotateCol a))
  have h3 := invMix_first_byte (rotateCol (rotateCol (rotateCol a)))
  simp only [mixCol_rotateCol, mixByte_rotateCol] at h1 h2 h3
  rw [invMixCol, h0, h1, h2, h3]
  rfl

theorem invMixColumns_mixColumns (s : Block) : invMixColumns (mixColumns s) = s := by
  simp only [invMixColumns, mixColumns, invMixCol_mixCol]

/-! ### Rounds, blocks and chains -/

/-- A round of decryption takes the round key off first, and leaves the round before it at the same stage (R170, R171). -/
theorem decRound_encRound (w : List Col) (s : Block) (r : Nat) :
    decRound w (shiftRows (subBytes (encRound w s r))) r = shiftRows (subBytes s) := by
  rw [decRound, invShiftRows_shiftRows, invSubBytes_subBytes, encRound, addRoundKey_addRoundKey, invMixColumns_mixColumns]

theorem decRounds_encRounds (w : List Col) (rs : List Nat) (s : Block) :
    rs.reverse.foldl (decRound w) (shiftRows (subBytes (rs.foldl (encRound w) s))) = shiftRows (subBytes s) := by
  induction rs generalizing s with
  | nil => rfl
  | cons r rs ih =>
    simp only [List.reverse_cons, List.foldl_append, List.foldl_cons, List.foldl_nil, ih, decRound_encRound]

theorem invCipher_cipher (w : List Col) (b : Block) : invCipher w (cipher w b) = b := by
  have hrounds := decRounds_encRounds w [1, 2, 3, 4, 5, 6, 7, 8, 9] (addRoundKey w 0 b)
  simp only [List.reverse_cons, List.reverse_nil, List.nil_append, List.cons_append] at hrounds
  simp only [invCipher, cipher, addRoundKey_addRoundKey, hrounds, invShiftRows_shiftRows, invSubBytes_subBytes]

theorem loadBlock_storeBlock (b : Block) : loadBlock (storeBlock b) = b := rfl

theorem storeBlock_loadBlock {bs : List Byte} (h : bs.length = 16) : storeBlock (loadBlock bs) = bs := by
  refine eq_of_byteAt _ _ h.symm fun i hi => ?_
  rw [length_storeBlock] at hi
  interval_cases i <;> rfl

/-- A block decrypted under the key it was encrypted with (R171). -/
theorem aesD_aesE (key : List Byte) {b : List Byte} (h : b.length = 16) : aesD key (aesE key b) = b := by
  rw [aesD, aesE, loadBlock_storeBlock, invCipher_cipher, storeBlock_loadBlock h]

theorem xorBytes_xorBytes_self {a b : List Byte} (h : a.length = b.length) : xorBytes (xorBytes a b) b = a := by
  refine List.ext_getElem (by simp [h]) fun i _ _ => ?_
  simp [xorBytes]

/-- Each block is decrypted with the chaining value it was encrypted with, the ciphertext before it (R178, R179). -/
theorem cbcDecFrom_cbcEncFrom (key : List Byte) (k : Nat) {prev p : List Byte} (hprev : prev.length = 16)
    (hp : p.length = 16 * k) : cbcDecFrom key k prev (cbcEncFrom key k prev p) = p := by
  induction k generalizing prev p with
  | zero => exact (List.eq_nil_of_length_eq_zero hp).symm
  | succ k ih =>
    have hhead : (p.take 16).length = 16 := by rw [List.length_take]; omega
    have htail : (p.drop 16).length = 16 * k := by rw [List.length_drop]; omega
    have hxor : (xorBytes (p.take 16) prev).length = 16 := by rw [length_xorBytes]; omega
    have hc := length_aesE key (xorBytes (p.take 16) prev)
    rw [cbcEncFrom, cbcDecFrom, List.take_left' hc, List.drop_left' hc, aesD_aesE key hxor,
      xorBytes_xorBytes_self (hhead.trans hprev.symm), ih hc htail, List.take_append_drop]

theorem cbcD_cbcE (key : List Byte) {iv p : List Byte} (hiv : iv.length = 16) (hp : p.length % 16 = 0) :
    cbcD key iv (cbcE key iv p) = p := by
  have hk : 16 * (p.length / 16) = p.length := by omega
  rw [cbcD, length_cbcE, Nat.mul_div_cancel_left _ (by decide)]
  exact cbcDecFrom_cbcEncFrom key _ hiv hk.symm

end Sys2Proof.Machine
end

section
/-! The receive path on a frame the block built (O43): PARSE, then DEC, then CSUMP (R150). -/

namespace Sys2Proof.Machine

/-- DEC with U = 0 stores the plaintext (R192). -/
theorem execDec_false_of_holds {s : State} {c : List Byte} (hlen : c.length = s.plen.toNat)
    (hfits : s.plen.toNat ≤ s.cfg.pbufBytes) (hmod : s.plen.toNat % 16 = 0) (hc : HoldsBytes s.mem pbufBase c) :
    execDec false s = .next (complete .noError (writePayload 0 (cbcD (keyBytes s) (ivBytes s) c) s)) := by
  rcases execDec_cases false s with ⟨hbad, -⟩ | ⟨-, -, hread⟩
  · omega
  · exact eq_of_operand_holds hlen hc hread

/-- DEC under the key of the encryption recovers the plaintext (R192). -/
theorem execDec_false_of_encrypted {s : State} {p : List Byte} (hlen : p.length = s.plen.toNat)
    (hfits : s.plen.toNat ≤ s.cfg.pbufBytes) (hmod : s.plen.toNat % 16 = 0)
    (hc : HoldsBytes s.mem pbufBase (cbcE (keyBytes s) (ivBytes s) p)) :
    execDec false s = .next (complete .noError (writePayload 0 p s)) := by
  have hclen : (cbcE (keyBytes s) (ivBytes s) p).length = s.plen.toNat := by
    rw [length_cbcE]
    omega
  rw [execDec_false_of_holds hclen hfits hmod hc, cbcD_cbcE _ (length_ivBytes s) (by omega)]

/-! ### The session and the payload through BUILD and PARSE -/

theorem keyBytes_complete (code : ErrCode) (s : State) : keyBytes (complete code s) = keyBytes s := rfl

theorem keyBytes_buildState (a : Bool) (p : List Byte) (s : State) : keyBytes (buildState a p s) = keyBytes s := by
  simp only [keyBytes, buildState, writeFrame]

theorem keyBytes_parseState (f : List Byte) (s : State) : keyBytes (parseState f s) = keyBytes s := by
  simp only [keyBytes, parseState, writePayload, loadRx]

/-- PARSE finds in a built frame what BUILD put there: the transmit registers, the sequence number and both checksums. -/
theorem parseState_buildFrame (a : Bool) (p : List Byte) (s t : State) :
    parseState (buildFrame a p s) t = { parseState (buildFrame a p s) t with
      rxFcksum := buildChecksum a p s, rxErrcode := 0, rxDevtype := s.devtype, rxTag := s.tag, rxSeq := buildSeq a s
      rxMacLo := s.macLo, rxMacHi := s.macHi, rxDevid := s.devid, rxPcksum := buildPayloadChecksum p } := by
  rw [parseState, loadRx_slice, slice_buildFrame_checksum, slice_buildFrame_errcode, slice_buildFrame_devtype,
    slice_buildFrame_tag, slice_buildFrame_seq, slice_buildFrame_macLo, slice_buildFrame_macHi, slice_buildFrame_devid,
    slice_buildFrame_pcksum]
  simp only [le16_bytesLE16, le32_bytesLE32, writePayload]

/-- What PARSE leaves of the frame a BUILD of `p` in `s` made (R150): the parameters and the key of `s`, the encrypted
payload in PBUF, and in the RX registers what BUILD put into the header. -/
structure ParsedFrame (a : Bool) (p : List Byte) (s t : State) : Prop where
  cfg : t.cfg = s.cfg
  key : keyBytes t = keyBytes s
  plen : t.plen.toNat = buildPayloadLength p.length
  payload : HoldsBytes t.mem pbufBase (cbcE (keyBytes s) (ivBytes s) (buildPlaintext p))
  rxDevtype : t.rxDevtype = s.devtype
  rxTag : t.rxTag = s.tag
  rxSeq : t.rxSeq = buildSeq a s
  rxMacLo : t.rxMacLo = s.macLo
  rxMacHi : t.rxMacHi = s.macHi
  rxDevid : t.rxDevid = s.devid
  rxErrcode : t.rxErrcode = 0
  rxFcksum : t.rxFcksum = buildChecksum a p s
  rxPcksum : t.rxPcksum = buildPayloadChecksum p

theorem parsedFrame_parseState {a : Bool} {p : List Byte} {s t : State} (hcfg : t.cfg = s.cfg)
    (hkey : keyBytes t = keyBytes s) (hflen : t.flen.toNat = (buildFrame a p s).length) :
    ParsedFrame a p s (complete .noError (parseState (buildFrame a p s) t)) := by
  have hrx := parseState_buildFrame a p s t
  refine ⟨by rwa [complete_cfg, parseState_cfg], by rwa [keyBytes_complete, keyBytes_parseState], ?_, ?_,
    congrArg State.rxDevtype hrx, congrArg State.rxTag hrx, congrArg State.rxSeq hrx, congrArg State.rxMacLo hrx,
    congrArg State.rxMacHi hrx, congrArg State.rxDevid hrx, congrArg State.rxErrcode hrx, by rw [complete_rxFcksum, hrx],
    congrArg State.rxPcksum hrx⟩
  · have hlt := t.flen.isLt
    have hframe := length_buildFrame a p s
    rw [hdrLen] at hframe
    rw [complete_plen, parseState_plen, BitVec.toNat_ofNat]
    omega
  · rw [complete_mem, parseState_mem, drop_buildFrame]
    exact holdsBytes_writeRange _ _ _

/-- The frame of a BUILD without error goes through PARSE when its payload fits in PBUF. -/
theorem execParse_buildState {a : Bool} {p : List Byte} {s : State} (legal : s.cfg.Legal) (hlen : p.length = s.plen.toNat)
    (hfits : (buildFrame a p s).length ≤ s.cfg.fbufBytes) (hp : buildPayloadLength p.length ≤ s.cfg.pbufBytes) :
    ∃ t, execParse (complete .noError (buildState a p s)) = .next t ∧ ParsedFrame a p s t := by
  have hflen : (complete .noError (buildState a p s)).flen.toNat = (buildFrame a p s).length :=
    buildState_flen legal hlen hfits
  have hcfg : (complete .noError (buildState a p s)).cfg = s.cfg := by rw [complete_cfg, buildState_cfg]
  have hkey : keyBytes (complete .noError (buildState a p s)) = keyBytes s := by
    rw [keyBytes_complete, keyBytes_buildState]
  have hframe := length_buildFrame a p s
  rw [hdrLen] at hframe
  exact ⟨_, execParse_of_holds hflen.symm (by omega) (by rw [hflen, hcfg]; exact hfits) (by rw [hflen, hcfg]; omega)
    fun k hk _ => holdsBytes_built a p s .noError k hk, parsedFrame_parseState hcfg hkey hflen⟩

/-- Settles O43: each command reads what the one before it stored, and decryption inverts encryption. -/
theorem receivedPayloadRecovered : Obligations.ReceivedPayloadRecovered := by
  intro s t a p legal hlen hpos hp hpad h herr
  obtain ⟨q, hqlen, hq, hfits, rfl⟩ := execBuild_noError h herr
  cases hq.unique (hqlen.trans hlen.symm) hp
  have hne : p ≠ [] := List.ne_nil_of_length_pos hpos
  have hplain : buildPlaintext p = pad p := if_neg hne
  have hpc : buildPayloadChecksum p = csum (pad p) := if_neg hne
  have hm : buildPayloadLength p.length = (pad p).length := by rw [← length_buildPlaintext, hplain]
  obtain ⟨t1, hparse, h1⟩ := execParse_buildState legal hlen hfits (hm ▸ hpad)
  have hplen : t1.plen.toNat = (pad p).length := h1.plen.trans hm
  have hfits1 : t1.plen.toNat ≤ t1.cfg.pbufBytes := by
    rw [hplen, h1.cfg]
    exact hpad
  have hmod : t1.plen.toNat % 16 = 0 := by rw [hplen, length_pad, paddedLength_mod]
  have hcipher : HoldsBytes t1.mem pbufBase (cbcE (keyBytes t1) (ivBytes t1) (pad p)) := by
    rw [h1.key, ivBytes, h1.cfg, ← hplain]
    exact h1.payload
  have hstored : HoldsBytes (writePayload 0 (pad p) t1).mem pbufBase (pad p) := holdsBytes_writeRange _ _ _
  refine ⟨t1, _, _, hparse, execDec_false_of_encrypted hplen.symm hfits1 hmod hcipher,
    execCsump_of_holds hplen.symm hfits1 hstored, h1.rxDevtype, h1.rxTag, ?_, h1.rxMacLo, h1.rxMacHi, h1.rxDevid,
    h1.rxErrcode, ?_, ?_, hplen, hstored, (h1.rxPcksum.trans hpc).symm⟩
  · rw [h1.rxSeq, complete_seq, buildState_seq]
  · rw [h1.rxFcksum, complete_cksum, buildState_cksum]
  · rw [h1.rxPcksum, complete_pcksum, buildState_pcksum]

end Sys2Proof.Machine
end

section
/-! The padding (O35), the inverse behind the S-box (O38), and the cipher by blocks (O36, O37, O39). -/

namespace Sys2Proof.Machine

/-! ### The padding -/

theorem paddedLength_sub (n : Nat) : paddedLength n - n = 16 - n % 16 := Nat.add_sub_cancel_left ..

theorem getLast?_pad (bs : List Byte) : (pad bs).getLast? = some 0#8 := by
  have hpos : 16 - bs.length % 16 ≠ 0 := by omega
  rw [pad, zeros, List.getLast?_append, List.getLast?_replicate, if_neg hpos, Option.some_or]

/-- Settles O35: 1 to 16 zeros are appended, always. -/
theorem paddingLaws : Obligations.PaddingLaws := by
  intro s
  have hlen : (pad s).length = s.length + (16 - s.length % 16) := length_pad s
  exact ⟨rfl, by omega, by rw [length_pad, paddedLength_mod], by omega, getLast?_pad s, List.take_left ..⟩

/-! ### The field and the S-box -/

theorem mulBits_zero_left (n : Nat) (b : Byte) : mulBits n 0 b = 0#8 := by
  induction n generalizing b with
  | zero => rfl
  | succ n ih =>
    have hx : xtime 0 = 0 := rfl
    rw [mulBits, hx, ih]
    exact (BitVec.xor_zero ..).trans (ite_self _)

theorem gmul_zero_left (b : Byte) : gmul 0 b = 0 := mulBits_zero_left 8 b

theorem gmul_one_left : ∀ b : Byte, gmul 1 b = b := by decide +kernel

theorem xtime_xor (a b : Byte) : xtime (a ^^^ b) = xtime a ^^^ xtime b := by
  have hcarry : (if (a ^^^ b).getLsbD 7 then 0x1B#8 else 0x00#8) =
      (if a.getLsbD 7 then 0x1B#8 else 0x00#8) ^^^ (if b.getLsbD 7 then 0x1B#8 else 0x00#8) := by
    rw [BitVec.getLsbD_xor]
    cases a.getLsbD 7 <;> cases b.getLsbD 7 <;> rfl
  rw [xtime, xtime, xtime, hcarry, BitVec.shiftLeft_xor_distrib]
  ac_rfl

/-- Additive maps that agree on the multiples `xtime^i(a)` a product is the xor of agree on the product. -/
theorem mulBits_ext {f g : Byte → Byte} (hf : ∀ b c, f (b ^^^ c) = f b ^^^ f c) (hg : ∀ b c, g (b ^^^ c) = g b ^^^ g c)
    (n : Nat) (a b : Byte) (h : ∀ i < n, f (xtime^[i] a) = g (xtime^[i] a)) : f (mulBits n a b) = g (mulBits n a b) := by
  have hf0 : f 0 = 0 := by simpa using hf 0 0
  have hg0 : g 0 = 0 := by simpa using hg 0 0
  have hzero : f 0 = g 0 := hf0.trans hg0.symm
  induction n generalizing a b with
  | zero => exact hzero
  | succ n ih =>
    have hbit : f (if b.getLsbD 0 then a else 0#8) = g (if b.getLsbD 0 then a else 0#8) := by
      split
      · exact h 0 n.succ_pos
      · exact hzero
    rw [mulBits, hf, hg, hbit, ih (xtime a) _ fun i hi => h (i + 1) (Nat.succ_lt_succ hi)]

/-- Every byte is its product with 1, so the powers `xtime^i(1)` are a basis. -/
theorem additive_ext {f g : Byte → Byte} (hf : ∀ b c, f (b ^^^ c) = f b ^^^ f c)
    (hg : ∀ b c, g (b ^^^ c) = g b ^^^ g c) (h : ∀ i < 8, f (xtime^[i] 1) = g (xtime^[i] 1)) (b : Byte) : f b = g b := by
  have hb : mulBits 8 1 b = b := gmul_one_left b
  rw [← hb]
  exact mulBits_ext hf hg 8 1 b h

/-- Multiplying by the i-th power of the field's variable is `xtime` i times; i = 8 is where R162's polynomial enters. -/
theorem gmul_power : ∀ a : Byte, ∀ i ≤ 8, gmul a (xtime^[i] 1) = xtime^[i] a := by decide +kernel

theorem gmul_one_right (a : Byte) : gmul a 1 = a := gmul_power a 0 (Nat.zero_le 8)

theorem gmul_xtime (a b : Byte) : gmul a (xtime b) = xtime (gmul a b) := by
  refine additive_ext (f := fun b => gmul a (xtime b)) (g := fun b => xtime (gmul a b))
    (fun b c => by simp only [xtime_xor, gmul_xor]) (fun b c => by simp only [gmul_xor, xtime_xor]) (fun i hi => ?_) b
  rw [← Function.iterate_succ_apply' xtime, gmul_power a _ hi, gmul_power a _ hi.le, Function.iterate_succ_apply']

/-- Multiplication by `a` commutes with `xtime`, so both sides agree on the basis. -/
theorem gmul_assoc (a b c : Byte) : gmul (gmul a b) c = gmul a (gmul b c) := by
  refine additive_ext (gmul_xor (gmul a b)) (g := fun c => gmul a (gmul b c)) (fun c d => by simp only [gmul_xor])
    (fun i hi => ?_) c
  have hpow : gmul a (xtime^[i] b) = xtime^[i] (gmul a b) := Function.Commute.iterate_right (gmul_xtime a) i b
  rw [gmul_power _ i hi.le, gmul_power b i hi.le, hpow]

/-- The inverse in the field, read off the S-box: R163's affine map taken off `SBOX[x]`. -/
def fieldInv (x : Byte) : Byte :=
  (sbox x).rotateLeft 1 ^^^ (sbox x).rotateLeft 3 ^^^ (sbox x).rotateLeft 6 ^^^ 0x05#8

theorem sbox_eq_affine_fieldInv : ∀ x : Byte, sbox x = sboxAffine (fieldInv x) := by decide +kernel

theorem gmul_fieldInv : ∀ x : Byte, x ≠ 0 → gmul x (fieldInv x) = 1 ∧ gmul (fieldInv x) x = 1 := by decide +kernel

theorem eq_fieldInv {x y : Byte} (h : gmul x y = 1) : y = fieldInv x := by
  have hx : x ≠ 0 := by
    rintro rfl
    rw [gmul_zero_left] at h
    exact absurd h (by decide)
  obtain ⟨-, hinv⟩ := gmul_fieldInv x hx
  calc y = gmul (gmul (fieldInv x) x) y := by rw [hinv, gmul_one_left]
    _ = fieldInv x := by rw [gmul_assoc, h, gmul_one_right]

/-- Settles O38: the inverse read off the table is an inverse and, the product being associative, the only one. -/
theorem sboxIsAffineOfInverse : Obligations.SboxIsAffineOfInverse := by
  refine ⟨fun x hx => ⟨fieldInv x, (gmul_fieldInv x hx).left⟩, fun x y h => ?_, by decide, invSbox_sbox⟩
  rw [eq_fieldInv h, sbox_eq_affine_fieldInv]

/-! ### The cipher -/

/-- Settles O39: each published answer by evaluation. -/
theorem cipherKnownAnswers : Obligations.CipherKnownAnswers :=
  ⟨by decide +kernel, by decide +kernel, by decide, by decide⟩

/-- Settles O36: the rounds undone one by one (`aesD_aesE`). -/
theorem blockDecryptInvertsEncrypt : Obligations.BlockDecryptInvertsEncrypt :=
  fun key _ _ hb => ⟨aesD_aesE key hb, length_aesE key _⟩

theorem length_cbcE_of_blocks (key iv : List Byte) {p : List Byte} (h : p.length % 16 = 0) :
    (cbcE key iv p).length = p.length := by
  rw [length_cbcE]
  omega

theorem length_cbcD_of_blocks (key : List Byte) {iv c : List Byte} (hiv : iv.length = 16) (h : c.length % 16 = 0) :
    (cbcD key iv c).length = c.length := by
  rw [length_cbcD key iv c hiv]
  omega

theorem blocks_append {b : List Byte} (hb : b.length = 16) (p : List Byte) :
    (b ++ p).length / 16 = p.length / 16 + 1 := by
  rw [List.length_append]
  omega

/-- One block of encryption; its ciphertext is the next chaining value (R178). -/
theorem cbcE_append (key iv : List Byte) {b : List Byte} (hb : b.length = 16) (p : List Byte) :
    cbcE key iv (b ++ p) = aesE key (xorBytes b iv) ++ cbcE key (aesE key (xorBytes b iv)) p := by
  rw [cbcE, blocks_append hb, cbcEncFrom, List.take_left' hb, List.drop_left' hb, cbcE]

/-- One block of decryption; its ciphertext is the next chaining value (R179). -/
theorem cbcD_append (key iv : List Byte) {b : List Byte} (hb : b.length = 16) (c : List Byte) :
    cbcD key iv (b ++ c) = xorBytes (aesD key b) iv ++ cbcD key b c := by
  rw [cbcD, blocks_append hb, cbcDecFrom, List.take_left' hb, List.drop_left' hb, cbcD]

/-- Settles O37: the chain undone block by block (`cbcD_cbcE`), and one step of each loop. -/
theorem cbcDecryptInvertsEncrypt : Obligations.CbcDecryptInvertsEncrypt := fun key iv p _ hiv hp =>
  ⟨length_cbcE_of_blocks key iv hp, rfl, cbcD_cbcE key hiv hp,
    fun _ hb => ⟨cbcE_append key iv hb p, cbcD_append key iv hb p⟩⟩

end Sys2Proof.Machine
end

section
/-! The session cipher's commands PAD (O18), ENC (O19) and DEC (O20), and the three in a row (O40). -/

namespace Sys2Proof.Machine

theorem holdsBytes_writePayload (lo : Nat) (bs : List Byte) (s : State) :
    HoldsBytes (writePayload lo bs s).mem (pbufBase + lo) bs := holdsBytes_writeRange _ _ _

theorem sameOutside_writePayload (lo : Nat) (bs : List Byte) (s : State) :
    SameOutside s.mem (writePayload lo bs s).mem (pbufBase + lo) bs.length := sameOutside_writeRange _ _ _

/-! ### PAD -/

/-- PAD when the padding fits (R184). -/
theorem execPad_of_fits {s : State} (h : paddedLength s.plen.toNat ≤ s.cfg.pbufBytes) :
    execPad s = .next (complete .noError
      { writePayload s.plen.toNat (zeros (16 - s.plen.toNat % 16)) s with
        plen := BitVec.ofNat 16 (paddedLength s.plen.toNat) }) := by
  have hle : s.plen.toNat ≤ paddedLength s.plen.toNat := Nat.le_add_right ..
  rcases execPad_cases s with ⟨hbad, -⟩ | ⟨-, -, e⟩
  · omega
  · rw [e, paddedLength_sub]

theorem execPad_length {s : State}
    (h : s.cfg.pbufBytes < s.plen.toNat ∨ s.cfg.pbufBytes < paddedLength s.plen.toNat) :
    execPad s = .next (complete .length s) := by
  rcases execPad_cases s with ⟨-, e⟩ | ⟨hplen, hpad, -⟩
  · exact e
  · omega

/-- Settles O18: the two outcomes of `execPad_cases`. -/
theorem padAppendsZeros : Obligations.PadAppendsZeros := by
  refine ⟨rfl, fun s _ => ⟨execPad_length, fun hfits => ⟨_, execPad_of_fits hfits, rfl, fun x hlo hhi => ?_, ?_⟩⟩⟩
  · have hzero := holdsBytes_writePayload s.plen.toNat (zeros (16 - s.plen.toNat % 16)) s (x - s.plen.toNat)
      (by rw [length_zeros]; omega)
    rwa [Nat.add_assoc, Nat.add_sub_cancel' hlo, byteAt_zeros] at hzero
  · have hout := sameOutside_writePayload s.plen.toNat (zeros (16 - s.plen.toNat % 16)) s
    rwa [length_zeros] at hout

/-! ### ENC -/

theorem execEnc_length {s : State} (h : s.cfg.pbufBytes < s.plen.toNat ∨ s.plen.toNat % 16 ≠ 0) :
    execEnc s = .next (complete .length s) := by
  rcases execEnc_cases s with ⟨-, e⟩ | ⟨hfits, hmod, -⟩
  · exact e
  · omega

/-- ENC stores the ciphertext (R188). -/
theorem execEnc_of_holds {s : State} {p : List Byte} (hlen : p.length = s.plen.toNat)
    (hfits : s.plen.toNat ≤ s.cfg.pbufBytes) (hmod : s.plen.toNat % 16 = 0) (hp : HoldsBytes s.mem pbufBase p) :
    execEnc s = .next (complete .noError (writePayload 0 (cbcE (keyBytes s) (ivBytes s) p) s)) := by
  rcases execEnc_cases s with ⟨hbad, -⟩ | ⟨-, -, hread⟩
  · omega
  · exact eq_of_operand_holds hlen hp hread

/-- Settles O19: the two outcomes of `execEnc_cases` that do not stop. -/
theorem encEncryptsInPlace : Obligations.EncEncryptsInPlace := by
  refine ⟨rfl, fun s => ⟨execEnc_length, fun p hlen hfits hmod hp => ?_⟩⟩
  have hclen : (cbcE (keyBytes s) (ivBytes s) p).length = p.length := length_cbcE_of_blocks _ _ (by omega)
  refine ⟨_, execEnc_of_holds hlen hfits hmod hp, rfl, hclen, holdsBytes_writePayload 0 _ s, ?_⟩
  rw [← hclen]
  exact sameOutside_writePayload 0 _ s

/-! ### DEC -/

theorem execDec_length (u : Bool) {s : State} (h : s.cfg.pbufBytes < s.plen.toNat ∨ s.plen.toNat % 16 ≠ 0) :
    execDec u s = .next (complete .length s) := by
  rcases execDec_cases u s with ⟨-, e⟩ | ⟨hfits, hmod, -⟩
  · exact e
  · omega

theorem execDec_of_holds (u : Bool) {s : State} {c : List Byte} (hlen : c.length = s.plen.toNat)
    (hfits : s.plen.toNat ≤ s.cfg.pbufBytes) (hmod : s.plen.toNat % 16 = 0) (hc : HoldsBytes s.mem pbufBase c) :
    execDec u s = storeDecrypted u (cbcD (keyBytes s) (ivBytes s) c) s := by
  rcases execDec_cases u s with ⟨hbad, -⟩ | ⟨-, -, hread⟩
  · omega
  · exact eq_of_operand_holds hlen hc hread

/-- Without U, or without a last byte, DEC strips nothing (R192). -/
theorem storeDecrypted_whole {u : Bool} {s : State} (p : List Byte) (h : u = false ∨ s.plen.toNat = 0) :
    storeDecrypted u p s = .next (complete .noError (writePayload 0 p s)) := by
  rcases storeDecrypted_cases u p s with ⟨-, e⟩ | ⟨rfl, hpos, -⟩ | ⟨rfl, hpos, -⟩
  · exact e
  · exact absurd (h.resolve_left nofun) hpos.ne'
  · exact absurd (h.resolve_left nofun) hpos.ne'

/-- With U, DEC strips as many bytes as the last one says (R194). -/
theorem storeDecrypted_strips {p : List Byte} {s : State} (hpos : 0 < s.plen.toNat)
    (hv : (byteAt p (s.plen.toNat - 1)).toNat ≤ s.plen.toNat) :
    storeDecrypted true p s = .next (complete .noError
      { writePayload 0 p s with plen := BitVec.ofNat 16 (s.plen.toNat - (byteAt p (s.plen.toNat - 1)).toNat) }) := by
  rcases storeDecrypted_cases true p s with ⟨h, -⟩ | ⟨-, -, -, e⟩ | ⟨-, -, hgt, -⟩
  · exact absurd (h.resolve_left nofun) hpos.ne'
  · exact e
  · omega

/-- With U, a last byte above PLEN raises UNPAD (R195). -/
theorem storeDecrypted_unpad {p : List Byte} {s : State} (hpos : 0 < s.plen.toNat)
    (hv : s.plen.toNat < (byteAt p (s.plen.toNat - 1)).toNat) :
    storeDecrypted true p s = .next (complete .unpad s) := by
  rcases storeDecrypted_cases true p s with ⟨h, -⟩ | ⟨-, -, hle, -⟩ | ⟨-, -, -, e⟩
  · exact absurd (h.resolve_left nofun) hpos.ne'
  · omega
  · exact e

/-- Settles O20: LENGTH by `execDec_cases`, the three cases with a plaintext by `storeDecrypted_cases`. -/
theorem decDecryptsInPlace : Obligations.DecDecryptsInPlace := by
  refine ⟨rfl, rfl, fun s u => ⟨execDec_length u, ?_⟩⟩
  rintro c p hlen hfits hmod hc rfl
  have hplen := length_cbcD_of_blocks (keyBytes s) (c := c) (length_ivBytes s) (by omega)
  have hexec := execDec_of_holds u hlen hfits hmod hc
  have hstored := holdsBytes_writePayload 0 (cbcD (keyBytes s) (ivBytes s) c) s
  have hrest := sameOutside_writePayload 0 (cbcD (keyBytes s) (ivBytes s) c) s
  refine ⟨hplen, fun h => ⟨_, hexec.trans (storeDecrypted_whole _ h), rfl, hstored, hrest⟩, ?_, ?_⟩
  · rintro ⟨rfl, hpos, hv⟩
    exact ⟨_, hexec.trans (storeDecrypted_strips hpos hv), rfl, hstored, hrest⟩
  · rintro ⟨rfl, hpos, hv⟩
    exact hexec.trans (storeDecrypted_unpad hpos hv)

/-! ### PAD, ENC, DEC -/

theorem byteAt_pad_last (p : List Byte) : byteAt (pad p) ((pad p).length - 1) = 0#8 := by
  have hlast := getLast?_pad p
  rw [List.getLast?_eq_getElem?] at hlast
  rw [byteAt, List.getD_eq_getElem?_getD, hlast, Option.getD_some]

theorem HoldsBytes.append {m : Memory} {a : Nat} {as bs : List Byte} (ha : HoldsBytes m a as)
    (hb : HoldsBytes m (a + as.length) bs) : HoldsBytes m a (as ++ bs) := by
  intro k hk
  rw [List.length_append] at hk
  by_cases hlt : k < as.length
  · rw [byteAt_append_left as bs k hlt]
    exact ha k hlt
  · obtain ⟨j, rfl⟩ := Nat.exists_eq_add_of_le (Nat.le_of_not_lt hlt)
    rw [byteAt_append_right, ← Nat.add_assoc]
    exact hb j (by omega)

/-- PAD leaves the padded payload in PBUF (R184). -/
theorem holdsBytes_pad {s : State} {p : List Byte} (hlen : p.length = s.plen.toNat) (hp : HoldsBytes s.mem pbufBase p) :
    HoldsBytes (writePayload s.plen.toNat (zeros (16 - s.plen.toNat % 16)) s).mem pbufBase (pad p) := by
  have hkept := hp.of_sameOutside (sameOutside_writePayload s.plen.toNat (zeros (16 - s.plen.toNat % 16)) s)
    (.inl (by omega))
  rw [pad]
  exact hkept.append (by rw [hlen]; exact holdsBytes_writePayload _ _ _)

/-- DEC with either U of an encrypted payload whose last byte is 0 strips nothing (R197). -/
theorem execDec_of_encrypted {u : Bool} {s : State} {p : List Byte} (hlen : p.length = s.plen.toNat)
    (hfits : s.plen.toNat ≤ s.cfg.pbufBytes) (hmod : s.plen.toNat % 16 = 0) (hlast : byteAt p (p.length - 1) = 0#8)
    (hc : HoldsBytes s.mem pbufBase (cbcE (keyBytes s) (ivBytes s) p)) :
    execDec u s = .next (complete .noError (writePayload 0 p s)) := by
  have hclen := length_cbcE_of_blocks (keyBytes s) (ivBytes s) (p := p) (by omega)
  rw [execDec_of_holds u (hclen.trans hlen) hfits hmod hc, cbcD_cbcE _ (length_ivBytes s) (by omega)]
  rw [hlen] at hlast
  rcases storeDecrypted_cases u p s with ⟨-, e⟩ | ⟨-, -, -, e⟩ | ⟨-, -, hgt, -⟩
  · exact e
  · rw [e, hlast]
    simp [writePayload]
  · rw [hlast] at hgt
    exact absurd hgt (Nat.not_lt_zero _)

/-- Settles O40: each command finds what the one before it stored, and the last byte of the padding is 0. -/
theorem padEncDecRoundTrip : Obligations.PadEncDecRoundTrip := by
  rintro s p u ⟨-, -, -, hpbuf⟩ hlen hpad hp
  have hm : paddedLength s.plen.toNat = (pad p).length := by rw [length_pad, hlen]
  have hplen : (BitVec.ofNat 16 (paddedLength s.plen.toNat)).toNat = (pad p).length := by
    rw [BitVec.toNat_ofNat]
    omega
  have hfits := hplen.le.trans hpad
  have hmod : (BitVec.ofNat 16 (paddedLength s.plen.toNat)).toNat % 16 = 0 := by
    rw [hplen, length_pad, paddedLength_mod]
  exact ⟨_, _, _, execPad_of_fits (hm ▸ hpad), execEnc_of_holds hplen.symm hfits hmod (holdsBytes_pad hlen hp),
    execDec_of_encrypted hplen.symm hfits hmod (byteAt_pad_last p) (holdsBytes_writePayload 0 _ _), rfl, hplen,
    holdsBytes_writePayload 0 _ _⟩

end Sys2Proof.Machine
end

section
/-! The session: NOP (O15), AUTHKEY (O28) with the identifier in the next frame (O30) and the key in use (O31), and KEYRST
(O29). -/

namespace Sys2Proof.Machine

/-! ### NOP -/

/-- STATUS after a completion with VALID, OVERRUN and BUSERR at 0: DONE, and the code in ERR (R25). -/
theorem statusWord_complete (code : ErrCode) {s : State} (hvalid : s.valid = false) (hoverrun : s.overrun = false)
    (hbuserr : s.buserr = false) :
    statusWord (complete code s) = BitVec.ofNat 32 (0x02 + 0x10 * (errBits code).toNat) := by
  simp only [statusWord, complete_busy, complete_done, complete_valid, complete_err, complete_overrun, complete_buserr,
    hvalid, hoverrun, hbuserr, Bool.toNat_false, Bool.toNat_true, Nat.mul_zero, Nat.mul_one, Nat.zero_add, Nat.add_zero,
    Nat.reducePow]

/-- Settles O15: `execNop_eq`, and STATUS = 0x20 has VALID, OVERRUN and BUSERR at 0 (`statusWord_fields`). -/
theorem nopOnlyCompletes : Obligations.NopOnlyCompletes := by
  refine ⟨rfl, execNop_eq, fun s t hstatus h => ?_⟩
  cases (execNop_eq (issue 0 s)).symm.trans h
  obtain ⟨-, -, hvalid, -, -, hoverrun, hbuserr, -⟩ := statusWord_fields s
  rw [hstatus] at hvalid hoverrun hbuserr
  exact statusWord_complete .noError (s := issue 0 s) hvalid.symm hoverrun.symm hbuserr.symm

/-! ### The key registers -/

/-- The key registers hold the sixteen bytes loaded (R40). -/
theorem keyBytes_setKey {bs : List Byte} (h : bs.length = 16) (s : State) : keyBytes (setKey bs s) = bs :=
  bytes_of_words bs h

/-! ### AUTHKEY -/

/-- The state after AUTHKEY takes the identifier and the key from the bytes `p` (R213), before its completion. -/
def authkeyState (p : List Byte) (s : State) : State :=
  { setKey (slice p 4 20) s with devid := le32 (slice p 0 4) }

@[simp] theorem authkeyState_devid (p : List Byte) (s : State) : (authkeyState p s).devid = le32 (slice p 0 4) := rfl

/-- The key is `p[4..20)` (R215). -/
theorem keyBytes_authkeyState {p : List Byte} (hlen : p.length = 20) (s : State) :
    keyBytes (authkeyState p s) = p.drop 4 := by
  calc keyBytes (authkeyState p s) = slice p 4 20 := keyBytes_setKey (length_slice p 4 20 hlen.ge) s
    _ = p.drop 4 := by rw [slice, List.take_of_length_le hlen.le]

/-- `KEYn` is `LE32(p[4+4n..8+4n))` (R213). -/
theorem wordOf_slice_key (p : List Byte) {n : Nat} (hn : n < 4) :
    wordOf (slice p 4 20) n = le32 (slice p (4 + 4 * n) (4 + (4 * n + 4))) := by
  rw [wordOf, slice_slice p (by omega)]

/-- All an AUTHKEY without error leaves: the key registers word by word (R213). -/
theorem complete_authkeyState (p : List Byte) (s : State) :
    complete .noError (authkeyState p s) = { s with
      devid := le32 (slice p 0 4)
      key0 := le32 (slice p 4 8)
      key1 := le32 (slice p 8 12)
      key2 := le32 (slice p 12 16)
      key3 := le32 (slice p 16 20)
      err := .noError, busy := false, done := true } := by
  simp only [complete, authkeyState, setKey, wordOf_slice_key p (n := 0) (by decide),
    wordOf_slice_key p (n := 1) (by decide), wordOf_slice_key p (n := 2) (by decide),
    wordOf_slice_key p (n := 3) (by decide)]

theorem execAuthkey_length {s : State} (h : s.plen.toNat < 20 ∨ s.cfg.pbufBytes < s.plen.toNat) :
    execAuthkey s = .next (complete .length s) := by
  rcases execAuthkey_cases s with ⟨-, e⟩ | ⟨hlo, hhi, -⟩
  · exact e
  · omega

theorem execAuthkey_of_holds {s : State} {p : List Byte} (hlen : p.length = 20) (hlo : 20 ≤ s.plen.toNat)
    (hhi : s.plen.toNat ≤ s.cfg.pbufBytes) (hp : HoldsBytes s.mem pbufBase p) :
    execAuthkey s = .next (complete .noError (authkeyState p s)) := by
  rcases execAuthkey_cases s with ⟨hbad, -⟩ | ⟨-, -, hread⟩
  · omega
  · exact eq_of_operand_holds hlen hp hread

/-- An AUTHKEY without error has read twenty bytes of PBUF. -/
theorem execAuthkey_noError {s t : State} (h : execAuthkey s = .next t) (herr : t.err = .noError) :
    ∃ p, p.length = 20 ∧ HoldsBytes s.mem pbufBase p ∧ t = complete .noError (authkeyState p s) := by
  rcases execAuthkey_cases s with ⟨-, e⟩ | ⟨-, -, ⟨p, hlen, hp, e⟩ | hfault⟩
  · cases e.symm.trans h
    exact nomatch herr
  · cases e.symm.trans h
    exact ⟨p, hlen, hp, rfl⟩
  · exact (h ▸ hfault).not_next.elim

/-- Settles O28: the two outcomes of `execAuthkey_cases` that do not stop, with the key word by word. -/
theorem authkeyTakesKey : Obligations.AuthkeyTakesKey := by
  refine ⟨rfl, fun s => ⟨execAuthkey_length, fun p hlen hlo hhi hp => ?_⟩⟩
  rw [← complete_authkeyState]
  exact execAuthkey_of_holds hlen hlo hhi hp

/-- Settles O30: BUILD stores the bytes of DEVID at 0x30 (R130), and those of `LE32(p[0..4))` are `p[0..4)`. -/
theorem authkeyBytesReappear : Obligations.AuthkeyBytesReappear := by
  intro s t u a _ hauth hterr hbuild huerr k hk
  obtain ⟨p, hlen, hp, rfl⟩ := execAuthkey_noError hauth hterr
  obtain ⟨q, -, -, -, rfl⟩ := execBuild_noError hbuild huerr
  have hdevid : slice (buildFrame a q (complete .noError (authkeyState p s))) 0x30 0x34 = slice p 0 4 := by
    rw [slice_buildFrame_devid, complete_devid, authkeyState_devid,
      bytesLE32_le32_of_length _ (length_slice p 0 4 (by omega))]
  have hid := (holdsBytes_built a q (complete .noError (authkeyState p s)) .noError).slice 0x30 0x34
    (by rw [length_buildFrame]; simp only [hdrLen]; omega)
  rw [hdevid] at hid
  have hframe := hid k (by rw [length_slice p 0 4 (by omega)]; exact hk)
  rw [byteAt_slice p 0 4 k (by omega), Nat.zero_add] at hframe
  have hpayload := hp k (by omega)
  exact ⟨hframe.trans hpayload.symm, Option.isSome_of_eq_some hpayload⟩

/-- Settles O31: the key bytes are those AUTHKEY read (`keyBytes_authkeyState`), and ENC stores the encryption under the key
it finds (R188). -/
theorem newKeyInUse : Obligations.NewKeyInUse := by
  intro s t p hauth hterr hlen hp
  obtain ⟨p', hlen', hp', rfl⟩ := execAuthkey_noError hauth hterr
  obtain rfl := hp'.unique (hlen'.trans hlen.symm) hp
  have hkey := keyBytes_authkeyState hlen s
  refine ⟨hkey, rfl, fun n q hq hfits hmod hholds => ⟨_, execEnc_of_holds hq hfits hmod hholds, ?_⟩⟩
  rw [← hkey]
  exact holdsBytes_writePayload 0 _ _

/-! ### KEYRST -/

/-- Settles O29: `execKeyrst_eq`, with the default key read back from its words. -/
theorem keyrstRestoresDefault : Obligations.KeyrstRestoresDefault := by
  refine ⟨rfl, fun s => ⟨_, execKeyrst_eq s, rfl, keyBytes_setKey Vector.length_toList s, fun hdefault => ?_⟩⟩
  calc wordOf s.cfg.defaultKey.toList 0 = wordOf Config.suggested.defaultKey.toList 0 := by rw [hdefault]
    _ = 0x34287609#32 := by decide

end Sys2Proof.Machine
end

section
/-! How a command ends (O7 to O11): completed, with no code, with LENGTH under its row of R237, or with UNPAD under R238. -/

namespace Sys2Proof.Machine

/-- DEC with U = 1 finds a last plaintext byte above PLEN (R238). -/
def unpadCondition (i : Instr) (s : State) : Prop :=
  i = .dec true ∧ ¬ lengthCondition i s ∧ 0 < s.plen.toNat ∧
    ∃ c, c.length = s.plen.toNat ∧ HoldsBytes s.mem pbufBase c ∧
      s.plen.toNat < (byteAt (cbcD (keyBytes s) (ivBytes s) c) (s.plen.toNat - 1)).toNat

/-- The state a LENGTH completes: VALIDATE alone changes it, by clearing VALID (R232, R141). -/
def lengthState (i : Instr) (s : State) : State := { s with valid := if i = .validate then false else s.valid }

/-- The states a command can answer. For BUILD, LENGTH meets the condition of R237 only if the header fits in FBUF, as it does
with legal parameters (R8). -/
inductive CommandEnd (i : Instr) (s : State) : State → Prop where
  | normal (u : State) (hcmd : u.cmd = s.cmd) (hie : u.ie = s.ie) : CommandEnd i s (complete .noError u)
  | length (h : s.cfg.Legal → lengthCondition i s) : CommandEnd i s (complete .length (lengthState i s))
  | unpad (h : unpadCondition i s) : CommandEnd i s (complete .unpad s)

/-! ### The commands -/

theorem execCsumf_ends (s : State) : NextSatisfies (CommandEnd .csumf s) (execCsumf s) := by
  rcases execCsumf_cases s with ⟨hbad, e⟩ | ⟨-, ⟨f, -, -, e⟩ | hfault⟩
  · exact .of_eq_next e (.length fun _ => hbad)
  · exact .of_eq_next e (.normal _ rfl rfl)
  · exact .of_operandFault hfault

theorem execCsump_ends (s : State) : NextSatisfies (CommandEnd .csump s) (execCsump s) := by
  rcases execCsump_cases s with ⟨hbad, e⟩ | ⟨-, ⟨p, -, -, e⟩ | hfault⟩
  · exact .of_eq_next e (.length fun _ => hbad)
  · exact .of_eq_next e (.normal _ rfl rfl)
  · exact .of_operandFault hfault

theorem execPad_ends (s : State) : NextSatisfies (CommandEnd .pad s) (execPad s) := by
  rcases execPad_cases s with ⟨hbad, e⟩ | ⟨-, -, e⟩
  · exact .of_eq_next e (.length fun _ => hbad)
  · exact .of_eq_next e (.normal _ rfl rfl)

theorem execEnc_ends (s : State) : NextSatisfies (CommandEnd .enc s) (execEnc s) := by
  rcases execEnc_cases s with ⟨hbad, e⟩ | ⟨-, -, ⟨p, -, -, e⟩ | hfault⟩
  · exact .of_eq_next e (.length fun _ => hbad)
  · exact .of_eq_next e (.normal _ rfl rfl)
  · exact .of_operandFault hfault

/-- DEC raises UNPAD only where `storeDecrypted_cases` does, on the decryption of bytes it has read (R238). -/
theorem execDec_ends (u : Bool) (s : State) : NextSatisfies (CommandEnd (.dec u) s) (execDec u s) := by
  rcases execDec_cases u s with ⟨hbad, e⟩ | ⟨hfits, hmod, ⟨c, hlen, hc, e⟩ | hfault⟩
  · exact .of_eq_next e (.length fun _ => hbad)
  · have hok : ¬ lengthCondition (.dec u) s := not_or.mpr ⟨hfits.not_gt, not_not.mpr hmod⟩
    rw [e]
    rcases storeDecrypted_cases u (cbcD (keyBytes s) (ivBytes s) c) s with
      ⟨-, e'⟩ | ⟨-, -, -, e'⟩ | ⟨rfl, hpos, hv, e'⟩
    · exact .of_eq_next e' (.normal _ rfl rfl)
    · exact .of_eq_next e' (.normal _ rfl rfl)
    · exact .of_eq_next e' (.unpad ⟨rfl, hok, hpos, c, hlen, hc, hv⟩)
  · exact .of_operandFault hfault

/-- BUILD's check of the frame's length is the row of R237, as a header alone fits in FBUF (R8, R130). -/
theorem lengthCondition_build_iff {s : State} (legal : s.cfg.Legal) (a : Bool) :
    lengthCondition (.build a) s ↔
      s.cfg.pbufBytes < s.plen.toNat ∨ s.cfg.fbufBytes < hdrLen + buildPayloadLength s.plen.toNat := by
  obtain ⟨⟨-, hheader, -⟩, -⟩ := legal
  simp only [lengthCondition, payloadLength, buildPayloadLength, hdrLen]
  split <;> omega

theorem execBuild_ends (a : Bool) (s : State) : NextSatisfies (CommandEnd (.build a) s) (execBuild a s) := by
  rcases execBuild_cases a s with ⟨hbad, e⟩ | ⟨-, -, ⟨p, -, -, e⟩ | hfault⟩
  · exact .of_eq_next e (.length fun legal => (lengthCondition_build_iff legal a).mpr hbad)
  · refine .of_eq_next e (.normal _ ?_ ?_)
    · simp only [buildState, writeFrame_cmd]
    · simp only [buildState, writeFrame_ie]
  · exact .of_operandFault hfault

theorem execValidate_ends (s : State) : NextSatisfies (CommandEnd .validate s) (execValidate s) := by
  rcases execValidate_cases s with ⟨hbad, e⟩ | ⟨-, -, ⟨f, -, -, e⟩ | hfault⟩
  · exact .of_eq_next e (.length fun _ => hbad)
  · exact .of_eq_next e (.normal _ rfl rfl)
  · exact .of_operandFault hfault

theorem execParse_ends (s : State) : NextSatisfies (CommandEnd .parse s) (execParse s) := by
  rcases execParse_cases s with ⟨hbad, e⟩ | ⟨-, -, -, ⟨h, p, -, -, -, -, e⟩ | hfault | hfault⟩
  · exact .of_eq_next e (.length fun _ => hbad)
  · exact .of_eq_next e (.normal _ rfl rfl)
  · exact .of_operandFault hfault
  · exact .of_operandFault hfault

theorem execAuthkey_ends (s : State) : NextSatisfies (CommandEnd .authkey s) (execAuthkey s) := by
  rcases execAuthkey_cases s with ⟨hbad, e⟩ | ⟨-, -, ⟨p, -, -, e⟩ | hfault⟩
  · exact .of_eq_next e (.length fun _ => hbad)
  · exact .of_eq_next e (.normal _ rfl rfl)
  · exact .of_operandFault hfault

theorem exec_ends (i : Instr) (s : State) : NextSatisfies (CommandEnd i s) (exec i s) := by
  cases i with
  | nop => exact .of_eq_next (execNop_eq s) (.normal _ rfl rfl)
  | csumf => exact execCsumf_ends s
  | csump => exact execCsump_ends s
  | pad => exact execPad_ends s
  | enc => exact execEnc_ends s
  | dec u => exact execDec_ends u s
  | build a => exact execBuild_ends a s
  | validate => exact execValidate_ends s
  | parse => exact execParse_ends s
  | authkey => exact execAuthkey_ends s
  | keyrst => exact .of_eq_next (execKeyrst_eq s) (.normal _ rfl rfl)

/-! ### When a condition holds, its error is raised -/

theorem execBuild_length {a : Bool} {s : State}
    (h : s.cfg.pbufBytes < s.plen.toNat ∨ s.cfg.fbufBytes < hdrLen + buildPayloadLength s.plen.toNat) :
    execBuild a s = .next (complete .length s) := by
  rcases execBuild_cases a s with ⟨-, e⟩ | ⟨hp, hf, -⟩
  · exact e
  · omega

/-- Every command checks its LENGTH condition before it reads an operand (R237). -/
theorem exec_of_lengthCondition {i : Instr} {s : State} (legal : s.cfg.Legal) (h : lengthCondition i s) :
    exec i s = .next (complete .length (lengthState i s)) := by
  cases i with
  | nop => exact h.elim
  | csumf => exact execCsumf_length h
  | csump => exact execCsump_length h
  | pad => exact execPad_length h
  | enc => exact execEnc_length h
  | dec u => exact execDec_length u h
  | build a => exact execBuild_length ((lengthCondition_build_iff legal a).mp h)
  | validate => exact execValidate_length h
  | parse => exact execParse_length h
  | authkey => exact execAuthkey_length h
  | keyrst => exact h.elim

theorem exec_of_unpadCondition {i : Instr} {s : State} (h : unpadCondition i s) :
    exec i s = .next (complete .unpad s) := by
  obtain ⟨rfl, hok, hpos, c, hlen, hc, hv⟩ := h
  obtain ⟨hfits, hmod⟩ := not_or.mp hok
  exact (execDec_of_holds true hlen (Nat.le_of_not_lt hfits) (not_not.mp hmod) hc).trans (storeDecrypted_unpad hpos hv)

/-! ### What every end has, and what its code says -/

/-- The command is over, with CMD and IE as it found them (R231, R240). -/
structure Completed (s t : State) : Prop where
  busy : t.busy = false
  done : t.done = true
  cmd : t.cmd = s.cmd
  ie : t.ie = s.ie

section
variable {i : Instr} {s t : State}

theorem CommandEnd.completed (h : CommandEnd i s t) : Completed s t := by
  cases h with
  | normal u hcmd hie => exact ⟨rfl, rfl, hcmd, hie⟩
  | length _ => exact ⟨rfl, rfl, rfl, rfl⟩
  | unpad _ => exact ⟨rfl, rfl, rfl, rfl⟩

theorem CommandEnd.lengthCondition_of_err (h : CommandEnd i s t) (herr : t.err = .length) (legal : s.cfg.Legal) :
    lengthCondition i s := by
  cases h with
  | normal u _ _ => exact nomatch (herr : ErrCode.noError = .length)
  | length hlength => exact hlength legal
  | unpad _ => exact nomatch (herr : ErrCode.unpad = .length)

theorem CommandEnd.unpadCondition_of_err (h : CommandEnd i s t) (herr : t.err = .unpad) : unpadCondition i s := by
  cases h with
  | normal u _ _ => exact nomatch (herr : ErrCode.noError = .unpad)
  | length _ => exact nomatch (herr : ErrCode.length = .unpad)
  | unpad hunpad => exact hunpad

theorem CommandEnd.err_ne_illegal (h : CommandEnd i s t) : t.err ≠ .illegal := by
  cases h with
  | normal u _ _ => exact nofun
  | length _ => exact nofun
  | unpad _ => exact nofun

theorem CommandEnd.err_cases_of_ne_dec (h : CommandEnd i s t) (hi : i ≠ .dec true) :
    t.err = .noError ∨ t.err = .length := by
  cases h with
  | normal u _ _ => exact .inl rfl
  | length _ => exact .inr rfl
  | unpad hunpad =>
    obtain ⟨hdec, -⟩ := hunpad
    exact absurd hdec hi

/-- A command that raises an error changes STATUS only (R232). -/
theorem CommandEnd.precise (h : CommandEnd i s t) (herr : t.err ≠ .noError) :
    t = { s with err := t.err, busy := false, done := true, valid := t.valid } ∧
      (i = .validate → t.valid = false) ∧ (i ≠ .validate → t.valid = s.valid) := by
  cases h with
  | normal u _ _ => exact absurd rfl herr
  | length _ => exact ⟨rfl, fun hi => if_pos hi, fun hi => if_neg hi⟩
  | unpad hunpad =>
    obtain ⟨rfl, -⟩ := hunpad
    exact ⟨rfl, nofun, fun _ => rfl⟩

end

theorem engineStep_completed {s t : State} (h : engineStep s = .next t) : Completed s t := by
  rcases engineStep_cases s with ⟨i, -, e⟩ | ⟨-, -, e⟩ <;> rw [e] at h
  · exact (exec_ends i s t h).completed
  · cases h
    exact ⟨rfl, rfl, rfl, rfl⟩

theorem engineStep_of_illegal {s : State} {e : Illegal} (hd : decode s.cmd = .error e) :
    engineStep s = .next (complete .illegal s) := by
  simp only [engineStep, hd, raiseError_eq]

theorem engineTurn_of_busy {s : State} (hr : s.rst = false) (hb : s.busy = true) : engineTurn s = engineStep s := by
  simp [engineTurn, hr, hb]

theorem engineTurn_of_idle {s : State} (hr : s.rst = false) (hb : s.busy = false) : engineTurn s = .next s := by
  simp [engineTurn, hr, hb]

/-! ### The obligations -/

/-- Settles O7: the engine's turn is its step, and every end of a step is a completion (`engineStep_completed`). -/
theorem engineStepCompletes : Obligations.EngineStepCompletes := by
  intro s hr
  refine ⟨fun hb => ⟨fun e hd => ?_, fun i hd => engineTurn_eq_exec hr hb hd, fun t h => ?_⟩, engineTurn_of_idle hr⟩
  · exact (engineTurn_of_busy hr hb).trans (engineStep_of_illegal hd)
  · obtain ⟨hbusy, hdone, hcmd, -⟩ := engineStep_completed ((engineTurn_of_busy hr hb).symm.trans h)
    exact ⟨hbusy, hdone, hcmd⟩

/-- Settles O8: a legal word by `CommandEnd.precise`; an illegal one changes STATUS only, and is no VALIDATE. -/
theorem errorsArePrecise : Obligations.ErrorsArePrecise := by
  intro s t h herr
  rcases engineStep_cases s with ⟨i, hd, e⟩ | ⟨x, hd, e⟩
  · rw [hd, Except.ok.injEq, ne_eq, Except.ok.injEq]
    exact (exec_ends i s t (e.symm.trans h)).precise herr
  · cases e.symm.trans h
    rw [hd]
    exact ⟨rfl, nofun, fun _ => rfl⟩

/-- Settles O9: one direction by each command's check, the other by the only end with that code. -/
theorem lengthRaisedExactlyWhen : Obligations.LengthRaisedExactlyWhen := fun i s legal =>
  ⟨exec_of_lengthCondition legal, fun t h herr => (exec_ends i s t h).lengthCondition_of_err herr legal, rfl⟩

/-- Settles O10: UNPAD has one end, under `unpadCondition`, and that condition decides the answer. -/
theorem unpadRaisedExactlyWhen : Obligations.UnpadRaisedExactlyWhen := by
  intro i s t h
  have answer (hunpad : unpadCondition i s) : t = complete .unpad s :=
    Host.Outcome.next.inj (h.symm.trans (exec_of_unpadCondition hunpad))
  have condition (herr : t.err = .unpad) : unpadCondition i s := (exec_ends i s t h).unpadCondition_of_err herr
  refine ⟨⟨condition, fun hunpad => ?_⟩, fun herr => ?_, rfl⟩
  · rw [answer hunpad, complete_err]
  · rw [answer (condition herr)]
    exact ⟨rfl, rfl⟩

/-- Settles O11: no end of a command has the code ILLEGAL; NOP and KEYRST have one end, and only DEC has UNPAD. -/
theorem illegalOnlyForIllegalWords : Obligations.IllegalOnlyForIllegalWords := by
  refine ⟨fun s e hd => engineStep_of_illegal hd, fun i s t h => ?_, rfl⟩
  have hend := exec_ends i s t h
  refine ⟨hend.err_ne_illegal, ?_, ?_, ?_⟩
  · rintro rfl
    cases (execNop_eq s).symm.trans h
    rfl
  · rintro rfl
    cases (execKeyrst_eq s).symm.trans h
    rfl
  · rintro rfl
    exact hend.err_cases_of_ne_dec nofun

end Sys2Proof.Machine
end

section
/-! The issue of a command (O6), and the interrupt output (O60). -/

namespace Sys2Proof.Machine

/-- STATUS and CTRL take a word write also while BUSY = 1 (R280). -/
theorem hostAccess_write_writableWhileBusy {r : Reg} (hw : writableWhileBusy r = true) (d : Word) (s : State) :
    hostAccess (.write (scriptAddr (.reg r)) .word d) s = .next (writeReg d s r) := by
  have haddr := toNat_regAddr r
  have hrange := (regOffset_range r).1
  have haligned := regOffset_aligned r
  calc hostWrite (scriptAddr (.reg r)) .word d s
      = .next (writeWindow (scriptAddr (.reg r)).toNat d s) := hostWrite_window (by omega) (by omega) d s
    _ = .next (writeReg d s r) := by simp [haddr, writeWindow, regAt_regOffset, hw]

/-- Settles O6: an idle word write reaches its register, and a write to CMD is the issue. -/
theorem issueLatchesWord : Obligations.IssueLatchesWord := fun _ w idle => hostAccess_write_reg idle w .cmd

/-- DONE = 0 keeps irq low, whatever IE is (R240). -/
theorem irq_of_not_done {s : State} (h : s.done = false) : irq s = false := by
  rw [irq, h, Bool.and_false]

/-- A completion raises irq if IE lets it, with an error or without (R240). -/
theorem irq_of_completed {s t : State} (h : Completed s t) : irq t = s.ie := by
  rw [irq, h.done, h.ie, Bool.and_true]

/-- Settles O60: DONE after a completion, an issue, an acknowledgement and a reset, and IE after a CTRL write. -/
theorem interruptFollowsDone : Obligations.InterruptFollowsDone := by
  refine ⟨fun _ => rfl, fun i s t h => irq_of_completed (exec_ends i s t h).completed, fun s t w idle h => ?_,
    fun s t d hbit h => ?_, fun s t d h => ?_, fun _ _ _ => rfl, fun s => irq_of_not_done (resetRegisters_done s)⟩
  · cases (hostAccess_write_reg idle w .cmd).symm.trans h
    exact irq_of_not_done rfl
  · cases (hostAccess_write_writableWhileBusy (r := .status) rfl d s).symm.trans h
    refine irq_of_not_done ?_
    calc (clearStatus d s).done = (s.done && !d.getLsbD 1) := clearStatus_done d s
      _ = false := by rw [hbit, Bool.not_true, Bool.and_false]
  · cases (hostAccess_write_writableWhileBusy (r := .ctrl) rfl d s).symm.trans h
    rfl

end Sys2Proof.Machine
end

section
/-! A command answers a next state or stops at an unspecified byte of its operands, and at nothing else (O12). -/

namespace Sys2Proof.Machine

/-- All a command can come to: a next state, or the fault of a read of one of its operand ranges (R262, R264). -/
def AnswersOrStops (i : Instr) (s : State) (r : Result) : Prop :=
  (∃ t, r = .next t) ∨ ∃ range ∈ operandRanges i s, OperandFault s range.1 range.2 r

theorem AnswersOrStops.next {i : Instr} {s t : State} : AnswersOrStops i s (.next t) := .inl ⟨t, rfl⟩

theorem AnswersOrStops.ite {i : Instr} {s : State} {c : Prop} [Decidable c] {r₁ r₂ : Result}
    (h₁ : AnswersOrStops i s r₁) (h₂ : AnswersOrStops i s r₂) : AnswersOrStops i s (if c then r₁ else r₂) := by
  split
  · exact h₁
  · exact h₂

theorem AnswersOrStops.readOperand {i : Instr} {s : State} {a n : Nat} {k : List Byte → Result}
    (hrange : (a, n) ∈ operandRanges i s) (h : ∀ bs, AnswersOrStops i s (k bs)) :
    AnswersOrStops i s (readOperand s a n k) := by
  rcases readOperand_cases s a n k with ⟨bs, -, -, e⟩ | hfault
  · rw [e]
    exact h bs
  · exact .inr ⟨(a, n), hrange, hfault⟩

/-- Specified bytes stop no read. -/
theorem OperandFault.not_of_specified {s : State} {a n : Nat} {r : Result} (h : OperandFault s a n r) :
    ¬ Specified s.mem a n := by
  obtain ⟨x, hnone, hlo, hhi, -⟩ := h
  intro hspecified
  have hsome := hspecified (x - a) (by omega)
  rw [Nat.add_sub_cancel' hlo, hnone] at hsome
  exact nomatch hsome

theorem storeDecrypted_answersOrStops (i : Instr) (u : Bool) (p : List Byte) (s : State) :
    AnswersOrStops i s (storeDecrypted u p s) :=
  .ite (.ite .next .next) .next

/-- A command checks its LENGTH condition, reads its operand ranges, and answers. -/
theorem exec_answersOrStops (i : Instr) (s : State) : AnswersOrStops i s (exec i s) := by
  cases i with
  | nop => exact .next
  | csumf => exact .ite .next (.readOperand (List.mem_singleton_self _) fun _ => .next)
  | csump => exact .ite .next (.readOperand (List.mem_singleton_self _) fun _ => .next)
  | pad => exact .ite .next (.ite .next .next)
  | enc => exact .ite .next (.readOperand (List.mem_singleton_self _) fun _ => .next)
  | dec u =>
    exact .ite .next (.readOperand (List.mem_singleton_self _) fun _ => storeDecrypted_answersOrStops _ u _ s)
  | build a => exact .ite .next (.ite .next (.readOperand (List.mem_singleton_self _) fun _ => .next))
  | validate => exact .ite .next (.readOperand (List.mem_singleton_self _) fun _ => .next)
  | parse =>
    exact .ite .next (.readOperand List.mem_cons_self fun _ =>
      .readOperand (List.mem_cons_of_mem _ (List.mem_singleton_self _)) fun _ => .next)
  | authkey => exact .ite .next (.readOperand (List.mem_singleton_self _) fun _ => .next)
  | keyrst => exact .next

/-- A ready command answers (R264). -/
theorem exec_of_commandReady {i : Instr} {s : State} (ready : CommandReady i s) : ∃ t, exec i s = .next t := by
  rcases exec_answersOrStops i s with hnext | ⟨range, hrange, hfault⟩
  · exact hnext
  · exact absurd (ready range hrange) hfault.not_of_specified

/-- Settles O12: each part reads off the two things a command can come to (`exec_answersOrStops`). -/
theorem readyCommandsNeverStop : Obligations.ReadyCommandsNeverStop := by
  intro i s
  refine ⟨exec_of_commandReady, fun r h => ?_, fun f h => ?_⟩
  · rcases exec_answersOrStops i s with ⟨t, e⟩ | ⟨-, -, x, -, -, -, e⟩
    · exact nomatch e.symm.trans h
    · exact nomatch e.symm.trans h
  · rcases exec_answersOrStops i s with ⟨t, e⟩ | ⟨range, hrange, x, hnone, hlo, hhi, e⟩
    · exact nomatch e.symm.trans h
    · exact ⟨x, Host.Outcome.fault.inj (h.symm.trans e), hnone, range, hrange, hlo, hhi⟩

end Sys2Proof.Machine
end

section
/-! What the engine does depends on its view of the state alone: two states with one view get one answer, again up to the
view. -/

namespace Sys2Proof.Machine

/-- A result with a next state reduced to the engine's view of it. -/
def viewResult : Result → Result
  | .next t => .next (engineView t)
  | .fault f => .fault f
  | .refused r => .refused r

/-- Two results are the same to the engine. -/
def SameAnswer (r r' : Result) : Prop := viewResult r = viewResult r'

theorem SameAnswer.next {r r' : Result} {t : State} (h : SameAnswer r r') (e : r' = .next t) :
    ∃ u, r = .next u ∧ engineView u = engineView t := by
  subst e
  cases r with
  | next u => exact ⟨u, rfl, Host.Outcome.next.inj h⟩
  | fault f => exact nomatch (h : viewResult (.fault f) = .next (engineView t))
  | refused f => exact nomatch (h : viewResult (.refused f) = .next (engineView t))

theorem SameAnswer.ite {c : Prop} [Decidable c] {r₁ r₂ r₁' r₂' : Result} (h₁ : SameAnswer r₁ r₁')
    (h₂ : SameAnswer r₂ r₂') : SameAnswer (if c then r₁ else r₂) (if c then r₁' else r₂') := by
  split
  · exact h₁
  · exact h₂

@[simp] theorem engineView_mem (s : State) : (engineView s).mem = s.mem := rfl

@[simp] theorem engineView_cmd (s : State) : (engineView s).cmd = s.cmd := rfl

/-- The view keeps the buffers, so an operand is read alike from both. -/
theorem SameAnswer.readOperand {s : State} {a n : Nat} {k k' : List Byte → Result} (h : ∀ bs, SameAnswer (k bs) (k' bs)) :
    SameAnswer (readOperand (engineView s) a n k) (readOperand s a n k') := by
  unfold Machine.readOperand
  rw [engineView_mem]
  cases s.mem.readRange a n with
  | ok bs => exact h bs
  | error x => rfl

theorem storeDecrypted_engineView (u : Bool) (p : List Byte) (s : State) :
    SameAnswer (storeDecrypted u p (engineView s)) (storeDecrypted u p s) :=
  .ite (.ite rfl rfl) rfl

/-- No command looks at what the view sets aside: its conditions, its operands and its results are in the view. -/
theorem exec_engineView (i : Instr) (s : State) : SameAnswer (exec i (engineView s)) (exec i s) := by
  cases i with
  | nop => rfl
  | csumf => exact .ite rfl (.readOperand fun _ => rfl)
  | csump => exact .ite rfl (.readOperand fun _ => rfl)
  | pad => exact .ite rfl (.ite rfl rfl)
  | enc => exact .ite rfl (.readOperand fun _ => rfl)
  | dec u => exact .ite rfl (.readOperand fun c => storeDecrypted_engineView u (cbcD (keyBytes s) (ivBytes s) c) s)
  | build a => exact .ite rfl (.ite rfl (.readOperand fun _ => rfl))
  | validate => exact .ite rfl (.readOperand fun _ => rfl)
  | parse => exact .ite rfl (.readOperand fun _ => .readOperand fun _ => rfl)
  | authkey => exact .ite rfl (.readOperand fun _ => rfl)
  | keyrst => rfl

theorem engineStep_engineView (s : State) : SameAnswer (engineStep (engineView s)) (engineStep s) := by
  unfold engineStep
  rw [engineView_cmd]
  cases decode s.cmd with
  | ok i => exact exec_engineView i s
  | error e => rfl

/-- The engine answers two states with one view alike (R73). -/
theorem engineStep_of_engineView_eq {s u s' : State} (hview : engineView u = engineView s)
    (h : engineStep s = .next s') : ∃ t, engineStep u = .next t ∧ engineView t = engineView s' := by
  have hsame : SameAnswer (engineStep u) (engineStep s) :=
    calc viewResult (engineStep u)
        = viewResult (engineStep (engineView u)) := (engineStep_engineView u).symm
      _ = viewResult (engineStep (engineView s)) := by rw [hview]
      _ = viewResult (engineStep s) := engineStep_engineView s
  exact hsame.next h

end Sys2Proof.Machine
end

section
/-! Host accesses while BUSY = 1: the writes performed and dropped (O48), the reads (O49), and that the engine sees none of
them. -/

namespace Sys2Proof.Machine

/-! ### Writes -/

/-- What is not STATUS or CTRL drops a write while BUSY = 1 (R280). -/
theorem hostWrite_dropped {s : State} {a : BusAddr} {n : Size} (busy : s.busy = true) (ht : Taken s.cfg a n)
    (hstatus : a ≠ 0x004#14) (hctrl : a ≠ 0x008#14) (d : Word) : hostWrite a n d s = .next (dropWrite s) := by
  have hnotIdle : s.busy ≠ false := by simp [busy]
  rcases hostWrite_cases a n d s with ⟨hno, -⟩ | ⟨-, -, -, e⟩ | ⟨-, -, ⟨-, e⟩ | ⟨hidle, -⟩⟩
  · exact absurd ht hno
  · rcases writeWindow_cases a.toNat d s with ⟨-, hidle, -⟩ | ⟨-, -, e'⟩ | ⟨r, hr, hidle | hw, -⟩
    · exact absurd hidle hnotIdle
    · rw [e, e']
    · exact absurd hidle hnotIdle
    · have haddr := eq_regAddr (regAt_eq_some_iff.mp hr)
      cases r with
      | status => exact absurd haddr hstatus
      | ctrl => exact absurd haddr hctrl
      | _ => exact nomatch hw
  · exact e
  · exact absurd hidle hnotIdle

/-- Settles O48: STATUS and CTRL take the write, every other address of the map drops it, and the rest is not on the map. -/
theorem writesWhileBusyAreDropped : Obligations.WritesWhileBusyAreDropped := by
  intro s a n d busy
  refine ⟨fun haligned hmapped => ⟨?status, ?ctrl, hostWrite_dropped busy ⟨haligned, hmapped⟩ (d := d)⟩, fun huntaken => ?_⟩
  case status =>
    rintro rfl rfl
    exact hostAccess_write_writableWhileBusy (r := .status) rfl d s
  case ctrl =>
    rintro rfl rfl
    exact hostAccess_write_writableWhileBusy (r := .ctrl) rfl d s
  · simp only [← Bool.not_eq_true, inFbuf_iff, inPbuf_iff] at huntaken
    exact hostWrite_of_not_taken (not_taken_of_untaken huntaken) d

/-! ### Reads -/

theorem hostAccess_read_regAddr (r : Reg) (s : State) :
    hostAccess (.read (scriptAddr (.reg r)) .word) s = .next (readWindow (regOffset r) s) := by
  have haddr := toNat_regAddr r
  have hrange := (regOffset_range r).1
  have haligned := regOffset_aligned r
  calc hostRead (scriptAddr (.reg r)) .word s
      = .next (readWindow (scriptAddr (.reg r)).toNat s) := hostRead_window (by omega) (by omega) s
    _ = .next (readWindow (regOffset r) s) := by rw [haddr]

theorem hostAccess_read_exactWhileBusy {r : Reg} (hexact : exactWhileBusy r = true) (s : State) :
    hostAccess (.read (scriptAddr (.reg r)) .word) s = .next (returnData (readReg s r) s) := by
  simp [hostAccess_read_regAddr, readWindow, regAt_regOffset, hexact]

theorem hostAccess_read_freeWhileBusy {r : Reg} {s : State} (busy : s.busy = true) (hfree : exactWhileBusy r = false) :
    hostAccess (.read (scriptAddr (.reg r)) .word) s = .next (returnFree 32 s) := by
  simp [hostAccess_read_regAddr, readWindow, regAt_regOffset, busy, hfree]

theorem hostRead_buffer_busy {s : State} {a : BusAddr} {n : Size} (busy : s.busy = true) (haligned : a.toNat % n.bytes = 0)
    (hbuf : inFbuf s.cfg a.toNat = true ∨ inPbuf s.cfg a.toNat = true) :
    hostRead a n s = .next (returnFree (8 * n.bytes) s) := by
  have hm : misaligned a n = false := by simp [misaligned, haligned]
  simp [hostRead, hm, region_buffer _ _ hbuf, busy]

/-- The registers that read exactly while BUSY = 1 (R281), in the order in which O49 lists them: all but STATUS and CTRL. -/
def exactPlainRegs : List Reg := [.cmd, .caps, .iv0, .iv1, .iv2, .iv3]

theorem exactWhileBusy_of_mem : ∀ r ∈ exactPlainRegs, exactWhileBusy r = true := by decide

theorem exactWhileBusy_eq_false {r : Reg} (h : r ∉ [Reg.cmd, .status, .ctrl, .caps, .iv0, .iv1, .iv2, .iv3]) :
    exactWhileBusy r = false := by
  cases r with
  | cmd | status | ctrl | caps | iv0 | iv1 | iv2 | iv3 => exact absurd (by decide) h
  | _ => rfl

/-- Settles O49: the registers of R281 read as they do when idle, all else draws a free value. -/
theorem readsWhileBusy : Obligations.ReadsWhileBusy := by
  intro s busy
  have exactReads : ∀ p ∈ exactPlainRegs.map fun r => (scriptAddr (.reg r), readReg s r),
      hostAccess (.read p.1 .word) s = .next (returnData p.2 s) :=
    List.forall_mem_map.mpr fun r hr => hostAccess_read_exactWhileBusy (exactWhileBusy_of_mem r hr) s
  have hstatus := statusWord_fields s
  rw [busy] at hstatus
  exact ⟨exactReads, ⟨statusWord s, hostAccess_read_exactWhileBusy (r := .status) rfl s, hstatus⟩,
    ⟨ctrlWord s, hostAccess_read_exactWhileBusy (r := .ctrl) rfl s, ctrlWord_fields s⟩,
    fun r hr => ⟨_, hostAccess_read_freeWhileBusy busy (exactWhileBusy_eq_false hr)⟩,
    fun a n haligned hbuf => ⟨_, hostRead_buffer_busy busy haligned hbuf⟩⟩

/-! ### What the engine sees of them -/

/-- The engine's view is as it was, and `rest` is what is left of the schedule. -/
structure Unseen (s u : State) (rest : List Turn) : Prop where
  view : engineView u = engineView s
  turns : u.turns = rest

theorem writeReg_unseen {r : Reg} (hw : writableWhileBusy r = true) (d : Word) (s : State) :
    Unseen s (writeReg d s r) s.turns := by
  cases r with
  | status | ctrl => exact ⟨rfl, rfl⟩
  | _ => exact nomatch hw

theorem readWindow_unseen (o : Nat) (s : State) : Unseen s (readWindow o s) s.turns := by
  rcases readWindow_cases o s with ⟨-, e⟩ | ⟨r, -, -, -, e⟩ | ⟨r, -, -, e⟩
  all_goals
    rw [e]
    exact ⟨rfl, rfl⟩

theorem writeWindow_unseen {s : State} (busy : s.busy = true) (o : Nat) (d : Word) :
    Unseen s (writeWindow o d s) s.turns := by
  rcases writeWindow_cases o d s with ⟨-, -, e⟩ | ⟨-, -, e⟩ | ⟨r, -, hidle | hw, e⟩ <;> rw [e]
  · exact ⟨rfl, rfl⟩
  · exact ⟨rfl, rfl⟩
  · exact nomatch busy.symm.trans hidle
  · exact writeReg_unseen hw d s

/-- While BUSY = 1 a host access always answers, and the engine does not see it (R280, R281). -/
theorem hostAccess_unseen {s : State} (busy : s.busy = true) (acc : Access) :
    ∃ u, hostAccess acc s = .next u ∧ Unseen s u s.turns := by
  cases acc with
  | read a n =>
    rcases hostRead_cases a n s with
      ⟨-, e⟩ | ⟨-, -, -, e⟩ | ⟨-, -, ⟨-, e⟩ | ⟨hidle, -⟩ | ⟨hidle, -⟩⟩
    · exact ⟨_, e, rfl, rfl⟩
    · exact ⟨_, e, readWindow_unseen a.toNat s⟩
    · exact ⟨_, e, rfl, rfl⟩
    · exact nomatch busy.symm.trans hidle
    · exact nomatch busy.symm.trans hidle
  | write a n d =>
    rcases hostWrite_cases a n d s with ⟨-, e⟩ | ⟨-, -, -, e⟩ | ⟨-, -, ⟨-, e⟩ | ⟨hidle, -⟩⟩
    · exact ⟨_, e, rfl, rfl⟩
    · exact ⟨_, e, writeWindow_unseen busy a.toNat d⟩
    · exact ⟨_, e, rfl, rfl⟩
    · exact nomatch busy.symm.trans hidle

end Sys2Proof.Machine
end

section
/-! The turns between an issue and the engine's (O13, O14): none is seen by the engine, so the command in flight completes, and
with one result whatever comes between. -/

namespace Sys2Proof.Machine

/-- A command is in flight and rst is released. -/
structure InFlight (s : State) : Prop where
  busy : s.busy = true
  released : s.rst = false

/-- Both are in the engine's view. -/
theorem InFlight.of_engineView_eq {s u : State} (h : InFlight s) (hview : engineView u = engineView s) : InFlight u where
  busy := (congrArg State.busy hview).trans h.busy
  released := (congrArg State.rst hview).trans h.released

/-- LatchReady is about CMD, the length registers and the buffers, all in the engine's view. -/
theorem LatchReady.of_engineView_eq {s u : State} (h : LatchReady s) (hview : engineView u = engineView s) :
    LatchReady u := by
  have hu : LatchReady (engineView u) := by
    rw [hview]
    exact h
  exact hu

/-- A turn that leaves a command in flight: the host's, or a level of rst that stays released (R276). -/
def Waits (t : Turn) : Prop := t ≠ .engine ∧ t ≠ .rst true

theorem step_unseen {s : State} (h : InFlight s) {t : Turn} {rest : List Turn} (hturns : s.turns = t :: rest)
    (hwait : Waits t) : ∃ u, step s = .next u ∧ Unseen s u rest := by
  have hstep := step_cons s t rest hturns
  cases t with
  | host acc =>
    obtain ⟨u, haccess, hview, hrest⟩ := hostAccess_unseen (s := withTurns rest s) h.busy acc
    exact ⟨u, hstep.trans ((hostTurn_released acc (withTurns rest s) h.released).trans haccess), hview, hrest⟩
  | engine => exact absurd rfl hwait.1
  | rst l =>
    cases l with
    | false =>
      have hstay : setRst false (withTurns rest s) = withTurns rest s := setRst_stays_released h.released
      exact ⟨withTurns rest s, hstep.trans (congrArg Host.Outcome.next hstay), rfl, rfl⟩
    | true => exact absurd rfl hwait.2

/-- A run goes through the turns that wait, and the engine sees none of them. -/
theorem run_unseen {s : State} (h : InFlight s) {ts rest : List Turn} (hturns : s.turns = ts ++ rest)
    (hwait : ∀ t ∈ ts, Waits t) :
    ∃ u, Unseen s u rest ∧ ∀ k, Sys2Proof.core.run (ts.length + k) s = Sys2Proof.core.run k u := by
  induction ts generalizing s with
  | nil => exact ⟨s, ⟨rfl, hturns⟩, fun k => by rw [List.length_nil, Nat.zero_add]⟩
  | cons t ts ih =>
    obtain ⟨ht, hts⟩ := List.forall_mem_cons.mp hwait
    obtain ⟨v, hstep, hv⟩ := step_unseen h hturns ht
    obtain ⟨u, hu, hrun⟩ := ih (h.of_engineView_eq hv.view) hv.turns hts
    refine ⟨u, ⟨hu.view.trans hv.view, hu.turns⟩, fun k => ?_⟩
    calc Sys2Proof.core.run (ts.length + 1 + k) s
        = Sys2Proof.core.run (ts.length + k + 1) s := by rw [Nat.add_right_comm]
      _ = Sys2Proof.core.run (ts.length + k) v := run_succ_of_next _ s v hstep
      _ = Sys2Proof.core.run k u := hrun k

/-- With a command in flight the engine's move is its step on the latched word. -/
theorem InFlight.step_of_engineMoves {s : State} (h : InFlight s) (hmoves : EngineMoves s) :
    ∃ ts, step s = engineStep (withTurns ts s) := by
  obtain ⟨ts, e⟩ := hmoves.step_eq
  exact ⟨ts, e.trans (engineTurn_of_busy (s := withTurns ts s) h.released h.busy)⟩

theorem engineStep_of_latchReady {s : State} (ready : LatchReady s) : ∃ t, engineStep s = .next t := by
  rcases engineStep_cases s with ⟨i, hd, e⟩ | ⟨-, -, e⟩
  · obtain ⟨t, hexec⟩ := exec_of_commandReady (ready i hd)
    exact ⟨t, e.trans hexec⟩
  · exact ⟨_, e⟩

/-- Every schedule is some turns of other agents, and then the engine moves (log 7). -/
theorem exists_turns_before_engine (ts : List Turn) :
    ∃ before rest, ts = before ++ rest ∧ .engine ∉ before ∧ (rest = [] ∨ ∃ later, rest = .engine :: later) := by
  by_cases hengine : .engine ∈ ts
  · obtain ⟨before, later, e, hnot⟩ := List.eq_append_cons_of_mem hengine
    exact ⟨before, .engine :: later, e, hnot, .inr ⟨later, rfl⟩⟩
  · exact ⟨ts, [], (List.append_nil ts).symm, hengine, .inl rfl⟩

/-- Settles O13: the run goes through the turns before the engine's (`run_unseen`), and the engine's step then completes. -/
theorem issuedCommandCompletes : Obligations.IssuedCommandCompletes := by
  intro s busy released hturns ready
  have inFlight : InFlight s := ⟨busy, released⟩
  obtain ⟨before, rest, e, hengine, hrest⟩ := exists_turns_before_engine s.turns
  have hwait : ∀ t ∈ before, Waits t := fun t ht =>
    ⟨fun h => hengine (h ▸ ht), hturns t (e ▸ List.mem_append_left rest ht)⟩
  obtain ⟨u, hu, hrun⟩ := run_unseen inFlight e hwait
  have hmoves : EngineMoves u := by
    rw [EngineMoves, hu.turns]
    exact hrest
  obtain ⟨ts, hstep⟩ := (inFlight.of_engineView_eq hu.view).step_of_engineMoves hmoves
  obtain ⟨t, ht⟩ := engineStep_of_latchReady (s := withTurns ts u) (ready.of_engineView_eq hu.view)
  have hdone := engineStep_completed ht
  refine ⟨before.length + 1, ?_, t, ?_, hdone.busy, hdone.done⟩
  · rw [e, List.length_append]
    omega
  · exact (hrun 1).trans ((run_one u).trans (hstep.trans ht))

/-- Settles O14: the accesses leave the engine's view (`run_unseen`), and the view decides its step
(`engineStep_of_engineView_eq`). -/
theorem scheduleDoesNotChangeResult : Obligations.ScheduleDoesNotChangeResult := by
  intro s s' accesses released busy h
  have inFlight (ts : List Turn) : InFlight { s with turns := ts } := ⟨busy, released⟩
  have hatOnce : engineStep { s with turns := [] } = .next s' :=
    (engineTurn_of_busy (s := { s with turns := [] }) released busy).symm.trans h
  have hwait : ∀ t ∈ accesses.map Turn.host, Waits t := List.forall_mem_map.mpr fun _ _ => ⟨nofun, nofun⟩
  obtain ⟨u, hu, hrun⟩ := run_unseen (inFlight (accesses.map .host ++ [.engine])) rfl hwait
  obtain ⟨ts, hstep⟩ := ((inFlight _).of_engineView_eq hu.view).step_of_engineMoves (.inr ⟨[], hu.turns⟩)
  have hview : engineView (withTurns ts u) = engineView { s with turns := [] } := hu.view
  obtain ⟨t, ht, hresult⟩ := engineStep_of_engineView_eq hview hatOnce
  refine ⟨t, ?_, hresult, (engineStep_completed ht).done.trans (engineStep_completed hatOnce).done.symm⟩
  rw [List.length_map] at hrun
  exact (hrun 1).trans ((run_one u).trans (hstep.trans ht))

end Sys2Proof.Machine
end

section
/-! Reset: the step under `rst` (O58), and the registers it leaves (O59). -/

namespace Sys2Proof.Machine

/-- The block in reset, with a level of rst, read data and a count of free values: what a turn may still decide. -/
def inReset (l : Bool) (v : Word) (c : Nat) (s : State) : State :=
  { resetRegisters s with rst := l, rdata := v, freeCount := c }

/-- The level of rst after a turn. -/
def levelAfter (t : Turn) (level : Bool) : Bool :=
  match t with
  | .rst l => l
  | _ => level

/-- Under rst every kind of turn resets the registers (R260, R241). -/
theorem takeTurn_inReset {t : Turn} {s : State} (h : s.rst = true ∨ t = .rst true) :
    ∃ v c, takeTurn t s = .next (inReset (levelAfter t s.rst) v c s) := by
  cases t with
  | engine =>
    have hr : s.rst = true := h.resolve_right nofun
    have hturn : engineTurn s = .next (resetRegisters s) := if_pos hr
    exact ⟨s.rdata, s.freeCount, hturn⟩
  | host acc =>
    have hr : s.rst = true := h.resolve_right nofun
    have hturn : hostTurn acc s = .next (accessUnderReset acc s) := if_pos hr
    cases acc with
    | read a n => exact ⟨_, s.freeCount + 1, hturn⟩
    | write a n d => exact ⟨s.rdata, s.freeCount, hturn⟩
  | rst l =>
    rcases setRst_cases l s with ⟨-, e⟩ | ⟨rfl, hr, -⟩
    · exact ⟨s.rdata, s.freeCount, congrArg Host.Outcome.next e⟩
    · rcases h with hr' | hlevel
      · exact nomatch hr.symm.trans hr'
      · exact nomatch hlevel

theorem ResetStep.step_eq {s : State} (h : ResetStep s) :
    ∃ l v c, step s = .next (inReset l v c (withTurns s.turns.tail s)) ∧
      (∀ l' rest, s.turns = .rst l' :: rest → l = l') ∧ ((∀ l' rest, s.turns ≠ .rst l' :: rest) → l = s.rst) := by
  unfold ResetStep at h
  cases hturns : s.turns with
  | nil =>
    have hr : s.rst = true := h.resolve_right (by simp [hturns])
    have hsame : withTurns [] s = s := by
      rw [← hturns]
      rfl
    obtain ⟨v, c, e⟩ := takeTurn_inReset (t := .engine) (.inl hr)
    refine ⟨s.rst, v, c, ?_, nofun, fun _ => rfl⟩
    rw [List.tail_nil, hsame]
    exact (step_nil s hturns).trans e
  | cons t rest =>
    have hreset : (withTurns rest s).rst = true ∨ t = .rst true := by simpa [hturns] using h
    obtain ⟨v, c, e⟩ := takeTurn_inReset hreset
    refine ⟨levelAfter t s.rst, v, c, (step_cons s t rest hturns).trans e, ?_, fun hother => ?_⟩
    · rintro l' rest' ⟨⟩
      rfl
    · cases t with
      | rst l => exact absurd rfl (hother l rest)
      | _ => rfl

/-- Settles O58: the step under rst leaves `inReset` (`ResetStep.step_eq`), every register of which is a reset value. -/
theorem resetInputTakesPrecedence : Obligations.ResetInputTakesPrecedence := by
  intro s h
  obtain ⟨l, v, c, e, hlevel, hstays⟩ := ResetStep.step_eq h
  refine ⟨_, e, rfl, fun x => ?_, rfl, irq_of_not_done rfl, hlevel, hstays⟩
  calc (resetRegisters s).mem.read x
      = Memory.read (if s.busy then [] else s.mem) x := by rw [resetRegisters_mem]
    _ = if s.busy then none else s.mem.read x := by split <;> rfl

/-- Settles O59: the reset values stand in `State.powerUp`; the key's words are those of DEFAULT_KEY. -/
theorem registersAfterReset : Obligations.RegistersAfterReset := by
  refine ⟨fun c => ⟨fun r hr => ?_, rfl, rfl, bytes_of_words _ Vector.length_toList, rfl, fun _ => rfl⟩, rfl, by decide⟩
  cases r with
  | seq | caps | key0 | key1 | key2 | key3 | iv0 | iv1 | iv2 | iv3 => exact absurd hr (by decide)
  | _ => rfl

end Sys2Proof.Machine
end
